-- ==== Sys2Proof/Config.lean ====
section
/-! DEFINITION. What the spec fixes for every instance of the block, the defaults of what it leaves open (spec/00_scope.md
R6), and the one free value of the model. -/

namespace Sys2Proof.Config

/-- `W` at its default (R6, D4). The width of an instance is `State.W`, at least 32. -/
abbrev defaultW : Nat := 32

/-- `NMAX` (R6, R127): the largest accepted frame count. Fixed by the document, no parameter. -/
abbrev nmax : Nat := 65536

/-- `PBACKED` at its default (R6, D25): no address range is unbacked. A range is its base and its size. -/
def unbackedDefault : List (Nat × Nat) := []

/-- `TX_READY` at its default (R6, D6). -/
def txReadyDefault : Bool := true

/-- What a payload byte reads as that nobody has placed. DESIGN CHOICE, unsafe (notes/assumptions/5.md): R50 gives
the payload space no reset contents. -/
def unlistedPayloadByte : BitVec 8 := 0x00

/-- FREE VALUE (R62, D22, Q1; notes/assumptions/6.md): which of the bytes an address has held since `CMD.START` a
racing `EMIT.DATA` reads. It has no body, so nothing can be proved of the choice. -/
opaque raceChoice : Nat → Nat

end Sys2Proof.Config
end

