-- ==== Sys2Proof/Word.lean ====
section
/-! DEFINITION. The byte type, the register names, and the four raw formats in which an operation is written
(spec/30_encoding.md R82, R84, R88). -/

namespace Sys2Proof

/-- 8 bits (spec/00_scope.md section 5.1). -/
abbrev Byte := BitVec 8

/-- Direction of a host access (R82, R160): read is 0, write is 1. -/
inductive Dir
  | read
  | write
  deriving DecidableEq, Repr

/-- The eleven registers of the register space (R34). -/
inductive Reg
  | ctrl
  | status
  | reportId
  | chunkCap
  | payloadLen
  | frameCount
  | frameIndex
  | crcData
  | crcValue
  | seqPhase
  | seqOff
  deriving DecidableEq, Repr

/-- A host access as it stands on the bus (R82, R160): direction, byte offset, how many bits wide the access is (R54,
R161 cause 2: anything but one whole word is refused), and that many bits of data. -/
structure Access where
  dir   : Dir
  addr  : Nat
  bits  : Nat
  wdata : BitVec bits
  deriving DecidableEq, Repr

/-- The four formats of the opcode table (R88). -/
inductive Format
  | frame
  | host
  | seq
  | engine
  deriving DecidableEq, Repr

/-- An encoded operation, in one of the four formats (R88): the flags byte of a frame (R80), a host access (R82), a
phase code (R84), or the table's nine-bit pattern of an engine operation. -/
inductive OpWord
  | frame (flags : Byte)
  | host (a : Access)
  | seq (code : BitVec 3)
  | engine (pattern : BitVec 9)
  deriving DecidableEq, Repr

/-- Why a word names no operation. The first five are refused host accesses (R83, R161), the last two are words that
the block never holds or emits (R81, R84). -/
inductive Reject
  /-- R161 cause 2: not one whole word. -/
  | notWholeWord
  /-- R161 cause 1: an offset that is no multiple of 4, or 0x2C and above. -/
  | unmappedOffset
  /-- R161 cause 3: a write to a read-only register. -/
  | readOnlyRegister
  /-- R161 cause 4: a CTRL write whose data is not 0, 1, 2 or 4. -/
  | reservedCommand
  /-- R161 cause 7: a CRC_DATA write above 0xFF. -/
  | crcDataTooLarge
  /-- R84: phase code 7. -/
  | reservedPhaseCode
  /-- R81: a flags byte whose bits 7:5 are no single one of FIRST, MIDDLE, LAST. -/
  | impossibleFlags
  deriving DecidableEq, Repr

/-- One row of spec/opcode_table.json (R88): a pattern `p` of the format is the row's when `p &&& mask = value`. -/
structure Row where
  mnemonic : String
  format   : Format
  value    : Nat
  mask     : Nat
  deriving DecidableEq, Repr

end Sys2Proof
end

