-- ==== Sys2Proof/Syntax.lean ====
section
/-! DEFINITION. The operations of the block: one constructor per row of spec/opcode_table.json (R2, R88). -/

namespace Sys2Proof

/-- What the spec calls an operation (R2): one atomic change of the block's state. -/
inductive Instr
  /-- FRAME.FIRST (R80, R122, R126): one whole frame, of kind FIRST. -/
  | frameFirst
  /-- FRAME.MIDDLE (R80, R122, R126): one whole frame, of kind MIDDLE. -/
  | frameMiddle
  /-- FRAME.LAST (R80, R122, R126): one whole frame, of kind LAST. -/
  | frameLast
  /-- RD.CTRL (R172). -/
  | rdCtrl
  /-- CMD.NOP (R167). -/
  | cmdNop
  /-- CMD.START (R129). -/
  | cmdStart
  /-- CMD.CLR (R169). -/
  | cmdClr
  /-- CMD.CRC_CLR (R170). -/
  | cmdCrcClr
  /-- RD.STATUS (R173). -/
  | rdStatus
  /-- RD.REPORT_ID (R165). -/
  | rdReportId
  /-- WR.REPORT_ID (R162): the data word, a number of `W` bits. -/
  | wrReportId (v : Nat)
  /-- RD.CHUNK_CAP (R165). -/
  | rdChunkCap
  /-- WR.CHUNK_CAP (R163): the data word, a number of `W` bits. -/
  | wrChunkCap (v : Nat)
  /-- RD.PAYLOAD_LEN (R165). -/
  | rdPayloadLen
  /-- WR.PAYLOAD_LEN (R164): the data word, a number of `W` bits. -/
  | wrPayloadLen (v : Nat)
  /-- RD.FRAME_COUNT (R174). -/
  | rdFrameCount
  /-- RD.FRAME_INDEX (R175). -/
  | rdFrameIndex
  /-- RD.CRC_DATA (R172). -/
  | rdCrcData
  /-- WR.CRC_DATA (R171): the data word, which is well formed only up to 0xFF. -/
  | wrCrcData (v : Nat)
  /-- RD.CRC_VALUE (R176). -/
  | rdCrcValue
  /-- RD.SEQ_PHASE (R177). -/
  | rdSeqPhase
  /-- RD.SEQ_OFF (R177). -/
  | rdSeqOff
  /-- EMIT.RID (R131). -/
  | emitRid
  /-- EMIT.FLAGS (R132). -/
  | emitFlags
  /-- EMIT.REML (R133). -/
  | emitReml
  /-- EMIT.REMH (R134). -/
  | emitRemh
  /-- EMIT.LEN (R135). -/
  | emitLen
  /-- EMIT.DATA (R136). -/
  | emitData
  /-- EMIT.CRC (R137). -/
  | emitCrc
  /-- CRC.CLR (R104). -/
  | crcClr
  /-- CRC.BYTE (R105). -/
  | crcByte (b : Byte)
  deriving DecidableEq, Repr

end Sys2Proof
end

