-- ==== Sys2Proof/WellFormed.lean ====
section
/-! DEFINITION. Which operations have an encoding at a width `W` of the register data path (spec/30_encoding.md R82). -/

namespace Sys2Proof

/-- An operand write carries any `W`-bit value (R162 to R164), WR.CRC_DATA one up to 0xFF (R82). -/
def Instr.wellFormed (W : Nat) : Instr → Bool
  | .frameFirst | .frameMiddle | .frameLast => true
  | .rdCtrl | .cmdNop | .cmdStart | .cmdClr | .cmdCrcClr | .rdStatus => true
  | .rdReportId | .rdChunkCap | .rdPayloadLen => true
  | .wrReportId v | .wrChunkCap v | .wrPayloadLen v => decide (v < 2 ^ W)
  | .rdFrameCount | .rdFrameIndex | .rdCrcData | .rdCrcValue | .rdSeqPhase | .rdSeqOff => true
  | .wrCrcData v => decide (v ≤ 0xFF)
  | .emitRid | .emitFlags | .emitReml | .emitRemh | .emitLen | .emitData | .emitCrc => true
  | .crcClr | .crcByte _ => true

end Sys2Proof
end

