-- ==== Sys2Proof/Decode.lean ====
section
/-! DEFINITION. The decoder of the four formats, the encoder written from the same tables of the spec, and the opcode
table itself (spec/30_encoding.md R80 to R84, R88; spec/10_state.md R34). -/

namespace Sys2Proof

/-! The register map (R34). -/

/-- The byte offset of a register (R34). -/
def Reg.offset : Reg → Nat
  | .ctrl => 0x00
  | .status => 0x04
  | .reportId => 0x08
  | .chunkCap => 0x0C
  | .payloadLen => 0x10
  | .frameCount => 0x14
  | .frameIndex => 0x18
  | .crcData => 0x1C
  | .crcValue => 0x20
  | .seqPhase => 0x24
  | .seqOff => 0x28

/-- The register mapped at a byte offset; none at every other offset (R34, R178). -/
def Reg.ofOffset (addr : Nat) : Option Reg :=
  match addr with
  | 0x00 => some .ctrl
  | 0x04 => some .status
  | 0x08 => some .reportId
  | 0x0C => some .chunkCap
  | 0x10 => some .payloadLen
  | 0x14 => some .frameCount
  | 0x18 => some .frameIndex
  | 0x1C => some .crcData
  | 0x20 => some .crcValue
  | 0x24 => some .seqPhase
  | 0x28 => some .seqOff
  | _ => none

/-! Decoding. -/

/-- A read access selects by its offset alone; a read of a mapped register is never refused (R82, R161). -/
def decodeRead : Reg → Instr
  | .ctrl => .rdCtrl
  | .status => .rdStatus
  | .reportId => .rdReportId
  | .chunkCap => .rdChunkCap
  | .payloadLen => .rdPayloadLen
  | .frameCount => .rdFrameCount
  | .frameIndex => .rdFrameIndex
  | .crcData => .rdCrcData
  | .crcValue => .rdCrcValue
  | .seqPhase => .rdSeqPhase
  | .seqOff => .rdSeqOff

/-- A CTRL write is decoded by its data, all `W` bits of it (R34, R35, R166). -/
def decodeCommand (v : Nat) : Except Reject Instr :=
  match v with
  | 0 => .ok .cmdNop
  | 1 => .ok .cmdStart
  | 2 => .ok .cmdClr
  | 4 => .ok .cmdCrcClr
  | _ => .error .reservedCommand

/-- A write access (R82, R83): six registers are read-only, CTRL and CRC_DATA look at the data. -/
def decodeWrite (r : Reg) (v : Nat) : Except Reject Instr :=
  match r with
  | .ctrl => decodeCommand v
  | .reportId => .ok (.wrReportId v)
  | .chunkCap => .ok (.wrChunkCap v)
  | .payloadLen => .ok (.wrPayloadLen v)
  | .crcData => if v ≤ 0xFF then .ok (.wrCrcData v) else .error .crcDataTooLarge
  | .status | .frameCount | .frameIndex | .crcValue | .seqPhase | .seqOff => .error .readOnlyRegister

/-- A host access on a register data path of `W` bits (R34, R82, R83, R178). -/
def decodeAccess (W : Nat) (a : Access) : Except Reject Instr :=
  if a.bits = W then
    match Reg.ofOffset a.addr with
    | some r => match a.dir with
      | .read => .ok (decodeRead r)
      | .write => decodeWrite r a.wdata.toNat
    | none => .error .unmappedOffset
  else .error .notWholeWord

/-- A sequencer phase code names the micro-operation that is due (R84). -/
def decodePhase (code : BitVec 3) : Except Reject Instr :=
  match code.toNat with
  | 0 => .ok .emitRid
  | 1 => .ok .emitFlags
  | 2 => .ok .emitReml
  | 3 => .ok .emitRemh
  | 4 => .ok .emitLen
  | 5 => .ok .emitData
  | 6 => .ok .emitCrc
  | _ => .error .reservedPhaseCode

/-- The kind of a frame is told by bits 7:5 of its flags byte (R80: mask 0xE0). -/
def decodeFlags (flags : Byte) : Except Reject Instr :=
  match (flags &&& 0xE0).toNat with
  | 0x80 => .ok .frameFirst
  | 0x40 => .ok .frameMiddle
  | 0x20 => .ok .frameLast
  | _ => .error .impossibleFlags

/-- The table's pattern `sel[8] byte[7:0]` of an engine operation (R88). -/
def decodeEngine (pattern : BitVec 9) : Instr :=
  if pattern.getLsbD 8 then .crcByte (pattern.setWidth 8) else .crcClr

/-- The decoder at a width `W` of the register data path: total, and it rejects by name. -/
def decode (W : Nat) : OpWord → Except Reject Instr
  | .frame flags => decodeFlags flags
  | .host a => decodeAccess W a
  | .seq code => decodePhase code
  | .engine pattern => .ok (decodeEngine pattern)

/-! Encoding. -/

/-- A whole-word read (R82); it carries no data, written 0. -/
def readAccess (W : Nat) (r : Reg) : Access := ⟨.read, r.offset, W, 0⟩

/-- A whole-word write (R82). -/
def writeAccess (W : Nat) (r : Reg) (v : Nat) : Access := ⟨.write, r.offset, W, BitVec.ofNat W v⟩

/-- The encoder at a width `W` of the register data path, from the tables of R80, R82, R84 and R88. -/
def encode (W : Nat) : Instr → OpWord
  | .frameFirst => .frame 0x80
  | .frameMiddle => .frame 0x40
  | .frameLast => .frame 0x20
  | .rdCtrl => .host (readAccess W .ctrl)
  | .cmdNop => .host (writeAccess W .ctrl 0)
  | .cmdStart => .host (writeAccess W .ctrl 1)
  | .cmdClr => .host (writeAccess W .ctrl 2)
  | .cmdCrcClr => .host (writeAccess W .ctrl 4)
  | .rdStatus => .host (readAccess W .status)
  | .rdReportId => .host (readAccess W .reportId)
  | .wrReportId v => .host (writeAccess W .reportId v)
  | .rdChunkCap => .host (readAccess W .chunkCap)
  | .wrChunkCap v => .host (writeAccess W .chunkCap v)
  | .rdPayloadLen => .host (readAccess W .payloadLen)
  | .wrPayloadLen v => .host (writeAccess W .payloadLen v)
  | .rdFrameCount => .host (readAccess W .frameCount)
  | .rdFrameIndex => .host (readAccess W .frameIndex)
  | .rdCrcData => .host (readAccess W .crcData)
  | .wrCrcData v => .host (writeAccess W .crcData v)
  | .rdCrcValue => .host (readAccess W .crcValue)
  | .rdSeqPhase => .host (readAccess W .seqPhase)
  | .rdSeqOff => .host (readAccess W .seqOff)
  | .emitRid => .seq 0
  | .emitFlags => .seq 1
  | .emitReml => .seq 2
  | .emitRemh => .seq 3
  | .emitLen => .seq 4
  | .emitData => .seq 5
  | .emitCrc => .seq 6
  | .crcClr => .engine 0x000
  | .crcByte b => .engine (0x100 ||| b.setWidth 9)

/-! Words as numbers, as the opcode table numbers them (R88). -/

/-- How many bits the packed host pattern has: `dir addr[5:0] wdata[W-1:0]`, which at `W = 32` is R88's
`dir[38] addr[37:32] wdata[31:0]`. DEDUCED for other widths (notes/assumptions/25.md). -/
abbrev hostBits (W : Nat) : Nat := W + 7

/-- The packed pattern of a host access (R88). Its `addr` field has six bits, so offsets of 64 and above and accesses
that are no whole word have no packed pattern; the decoder refuses them all the same. -/
def Access.pack (W : Nat) (a : Access) : Nat :=
  ((match a.dir with | .read => 0 | .write => 64) + a.addr % 64) * 2 ^ W + a.wdata.toNat

/-- The access whose packed pattern is `w`. -/
def Access.unpack (W w : Nat) : Access where
  dir   := if w / 2 ^ W / 64 % 2 = 0 then .read else .write
  addr  := w / 2 ^ W % 64
  bits  := W
  wdata := BitVec.ofNat W w

/-- The pattern of an operation word as one number, bit 0 the least significant (R88). -/
def OpWord.pattern (W : Nat) : OpWord → Nat
  | .frame flags => flags.toNat
  | .host a => a.pack W
  | .seq code => code.toNat
  | .engine pattern => pattern.toNat

/-- The format of an operation word. -/
def OpWord.format : OpWord → Format
  | .frame _ => .frame
  | .host _ => .host
  | .seq _ => .seq
  | .engine _ => .engine

/-- How many bits a row of a format has, in whole bytes: 8 for FRAME's 8 and SEQ's 3, 16 for ENGINE's 9, and at
`W = 32` 40 for HOST's 39. -/
def Format.tableBits (W : Nat) : Format → Nat
  | .frame | .seq => 8
  | .engine => 16
  | .host => (hostBits W + 7) / 8 * 8

/-- The operation word that the table's numbering writes as `w` in a row of `nbits` bits, counted in whole bytes.
A FRAME row has 8 bits and a SEQ row 3; they share one byte without overlap, since every frame kind has a bit above
bit 4 and a phase code has none above bit 2 (DESIGN CHOICE, notes/assumptions/24.md). An ENGINE row has 9 bits, a HOST
row `W + 7`. -/
def tableWord (W nbits w : Nat) : Option OpWord :=
  if nbits ≤ 8 then
    if w < 8 then some (.seq (BitVec.ofNat 3 w))
    else if 0x20 ≤ w ∧ w < 0x100 then some (.frame (BitVec.ofNat 8 w))
    else none
  else if nbits ≤ 16 then
    if w < 0x200 then some (.engine (BitVec.ofNat 9 w)) else none
  else if w < 2 ^ hostBits W then some (.host (Access.unpack W w))
  else none

/-- What the decoder reads from a word of the opcode table at a width `W`. -/
def decodeTableWordAt (W nbits w : Nat) : Option Instr :=
  match tableWord W nbits w with
  | some word => (decode W word).toOption
  | none => none

/-- What the decoder reads from a word of spec/opcode_table.json, which is written for the default width (R88). -/
def decodeTableWord (nbits w : Nat) : Option Instr := decodeTableWordAt Config.defaultW nbits w

/-! The opcode table (R88). -/

/-- A row matched on `dir` and `addr` alone: `k` is `dir addr[5:0]` (R88: at `W = 32` the mask is 0x7F00000000). -/
def hostRow (W : Nat) (mnemonic : String) (k : Nat) : Row := ⟨mnemonic, .host, k * 2 ^ W, 0x7F * 2 ^ W⟩

/-- A CTRL write of the data `c`, matched on every bit (R88: at `W = 32` the mask is 0x7FFFFFFFFF). -/
def commandRow (W : Nat) (mnemonic : String) (c : Nat) : Row := ⟨mnemonic, .host, 0x40 * 2 ^ W + c, 2 ^ hostBits W - 1⟩

/-- The row of spec/opcode_table.json that an operation stands for, whose HOST patterns the spec gives for `W = 32`. -/
def Instr.row (W : Nat) : Instr → Row
  | .frameFirst => ⟨"FRAME.FIRST", .frame, 0x80, 0xE0⟩
  | .frameMiddle => ⟨"FRAME.MIDDLE", .frame, 0x40, 0xE0⟩
  | .frameLast => ⟨"FRAME.LAST", .frame, 0x20, 0xE0⟩
  | .rdCtrl => hostRow W "RD.CTRL" 0x00
  | .cmdNop => commandRow W "CMD.NOP" 0
  | .cmdStart => commandRow W "CMD.START" 1
  | .cmdClr => commandRow W "CMD.CLR" 2
  | .cmdCrcClr => commandRow W "CMD.CRC_CLR" 4
  | .rdStatus => hostRow W "RD.STATUS" 0x04
  | .rdReportId => hostRow W "RD.REPORT_ID" 0x08
  | .wrReportId _ => hostRow W "WR.REPORT_ID" 0x48
  | .rdChunkCap => hostRow W "RD.CHUNK_CAP" 0x0C
  | .wrChunkCap _ => hostRow W "WR.CHUNK_CAP" 0x4C
  | .rdPayloadLen => hostRow W "RD.PAYLOAD_LEN" 0x10
  | .wrPayloadLen _ => hostRow W "WR.PAYLOAD_LEN" 0x50
  | .rdFrameCount => hostRow W "RD.FRAME_COUNT" 0x14
  | .rdFrameIndex => hostRow W "RD.FRAME_INDEX" 0x18
  | .rdCrcData => hostRow W "RD.CRC_DATA" 0x1C
  | .wrCrcData _ => ⟨"WR.CRC_DATA", .host, 0x5C * 2 ^ W, 2 ^ hostBits W - 0x100⟩
  | .rdCrcValue => hostRow W "RD.CRC_VALUE" 0x20
  | .rdSeqPhase => hostRow W "RD.SEQ_PHASE" 0x24
  | .rdSeqOff => hostRow W "RD.SEQ_OFF" 0x28
  | .emitRid => ⟨"EMIT.RID", .seq, 0x0, 0x7⟩
  | .emitFlags => ⟨"EMIT.FLAGS", .seq, 0x1, 0x7⟩
  | .emitReml => ⟨"EMIT.REML", .seq, 0x2, 0x7⟩
  | .emitRemh => ⟨"EMIT.REMH", .seq, 0x3, 0x7⟩
  | .emitLen => ⟨"EMIT.LEN", .seq, 0x4, 0x7⟩
  | .emitData => ⟨"EMIT.DATA", .seq, 0x5, 0x7⟩
  | .emitCrc => ⟨"EMIT.CRC", .seq, 0x6, 0x7⟩
  | .crcClr => ⟨"CRC.CLR", .engine, 0x000, 0x100⟩
  | .crcByte _ => ⟨"CRC.BYTE", .engine, 0x100, 0x100⟩

/-- A pattern is a row's when the bits under the mask are the row's value. -/
def Row.matchesPattern (r : Row) (p : Nat) : Bool := p &&& r.mask == r.value

/-- One operation of each FRAME row. -/
def frameOps : List Instr := [.frameFirst, .frameMiddle, .frameLast]

/-- One operation of each HOST row. -/
def hostOps : List Instr :=
  [.rdCtrl, .cmdNop, .cmdStart, .cmdClr, .cmdCrcClr, .rdStatus, .rdReportId, .wrReportId 0, .rdChunkCap, .wrChunkCap 0]
    ++ [.rdPayloadLen, .wrPayloadLen 0, .rdFrameCount, .rdFrameIndex, .rdCrcData, .wrCrcData 0, .rdCrcValue,
        .rdSeqPhase, .rdSeqOff]

/-- One operation of each SEQ row. -/
def seqOps : List Instr := [.emitRid, .emitFlags, .emitReml, .emitRemh, .emitLen, .emitData, .emitCrc]

/-- One operation of each ENGINE row. -/
def engineOps : List Instr := [.crcClr, .crcByte 0]

/-- The 31 rows of spec/opcode_table.json, in its order. -/
def opcodeTable (W : Nat) : List Row := (frameOps ++ hostOps ++ seqOps ++ engineOps).map (Instr.row W)

end Sys2Proof
end

