-- ==== Sys2Proof/Machine/Crc8.lean ====
section
/-! DEFINITION. The checksum functions (spec/40_checksum.md R100 to R103). -/

namespace Sys2Proof.Machine

open Sys2Proof

/-- The polynomial constant (R100, R103). -/
def crcPoly : Byte := 0x07

/-- The initial register value (R102, R103). -/
def crcInit : Byte := 0x00

/-- `crc8_bit` (R100): the bit tested is bit 7 before the shift; 8-bit arithmetic is the mask. -/
def crc8Bit (r : Byte) : Byte :=
  if r.getLsbD 7 then (r <<< 1) ^^^ crcPoly else r <<< 1

/-- `crc8_byte` (R101): the whole byte is XORed in, then eight shift steps. -/
def crc8Byte (r b : Byte) : Byte :=
  crc8Bit (crc8Bit (crc8Bit (crc8Bit (crc8Bit (crc8Bit (crc8Bit (crc8Bit (r ^^^ b))))))))

/-- `crc8` (R102): a left fold from the initial value. -/
def crc8 (bytes : List Byte) : Byte := bytes.foldl crc8Byte crcInit

end Sys2Proof.Machine
end

