-- ==== Sys2Proof/Machine/State.lean ====
section
/-! DEFINITION. The state of the block and of the two spaces it touches, and the state right after reset
(spec/10_state.md R20 to R33, R43; spec/20_memory.md R50, R56, R58; spec/70_reset_and_hazards.md R200). -/

namespace Sys2Proof.Machine

open Sys2Proof

/-- `mode` (R30), 2 bits. -/
inductive Mode
  /-- Code 0: nothing has been asked. -/
  | idle
  /-- Code 1: a transfer is in progress. -/
  | busy
  /-- Code 2: the last transfer emitted all its frames. -/
  | done
  /-- Code 3: the last `CMD.START` raised an exception. -/
  | error
  deriving DecidableEq, Repr

/-- `seq.phase` (R28, R84), 3 bits; the code 7 is never held and has no constructor. -/
inductive Phase
  | rid
  | flags
  | reml
  | remh
  | len
  | data
  | crc
  deriving DecidableEq, Repr

/-- The two exceptions (R180). -/
inductive Exc
  /-- `E_CONFIG`, the document's ConfigurationError. -/
  | config
  /-- `E_CAPACITY`, the document's CapacityExceededError. -/
  | capacity
  deriving DecidableEq, Repr

/-- `errcode` (R31, R85), 4 bits; the codes 3 to 15 are never produced and have no constructor. -/
inductive ErrCode
  | none
  | raised (e : Exc)
  deriving DecidableEq, Repr

/-- One beat of the TX stream (R56). -/
structure Beat where
  byte : Byte
  last : Bool
  deriving DecidableEq, Repr

/-- The answer to one host access (R160): `OK(rdata)`, `OK` or `ERR`. -/
inductive Reply
  | data (v : Nat)
  | ok
  | err
  deriving DecidableEq, Repr

/-- The payload space as a sparse list of bytes, in one canonical form (`Memory.wf`, Machine/Ops.lean). -/
abbrev Memory := List Host.Cell

/-- One entry of what still comes to the block from outside, in the total order of R58. -/
inductive Request
  /-- A host access (R160). -/
  | host (a : Access)
  /-- A turn of the sequencer: one micro-operation, if one is enabled (R58, R130). -/
  | tick
  /-- A turn of the sequencer as a coarser implementation takes it (D21): one whole frame.
  DESIGN CHOICE (notes/assumptions/9.md). -/
  | frameTurn
  /-- An engine operation asked for directly, outside a transfer.
  DESIGN CHOICE (notes/assumptions/10.md). -/
  | engine (pattern : BitVec 9)
  /-- The reset input (R200). -/
  | reset
  /-- The platform places one payload byte (R50, R57). -/
  | payload (addr : Nat) (b : Byte)
  /-- The TX consumer becomes ready, or stops being ready (R56). -/
  | txReady (ready : Bool)
  deriving DecidableEq, Repr

/-- Everything the spec gives the machine. First the width of the instance, a parameter of R6 that no operation changes.
The next thirteen fields are the block's own state (R20: and nothing else is); six of them are registers of `W` bits,
which the spec reads and writes as whole numbers (R128, R160): they are numbers here, and `State.Inv` keeps each below
`2 ^ W` (notes/assumptions/1.md). The next six are the platform's side (`PMEM` and `tx`, which R20 says the model needs
beside the block's state, the two other open parameters of R6, and the host's accesses and their answers); the last two
are the model's own. -/
structure State where
  /-- `W`, the width in bits of the operand registers, of `cap`, `plen`, `seq.off`, of a payload-space address and of
  the register data path (R6, R34, D4); at least 32. -/
  W          : Nat
  /-- `x[REPORT_ID]` (R21). -/
  reportId   : Nat
  /-- `x[CHUNK_CAP]` (R22). -/
  chunkCap   : Nat
  /-- `x[PAYLOAD_LEN]` (R23). -/
  payloadLen : Nat
  /-- `rid`, latched (R24). -/
  rid        : Byte
  /-- `cap`, latched (R24). -/
  cap        : Nat
  /-- `plen`, latched (R24). -/
  plen       : Nat
  /-- `nfr`, the latched frame count (R24). -/
  nfr        : BitVec 17
  /-- `seq.idx` (R28). -/
  seqIdx     : BitVec 17
  /-- `seq.phase` (R28). -/
  seqPhase   : Phase
  /-- `seq.off` (R28). -/
  seqOff     : Nat
  /-- `mode` (R30). -/
  mode       : Mode
  /-- `errcode` (R31). -/
  errcode    : ErrCode
  /-- `crc` (R26). -/
  crc        : Byte
  /-- `PMEM`, the platform's payload space (R50). -/
  pmem       : Memory
  /-- The payload-space ranges (base, size) that the platform does not back: `PBACKED` (R6, R64). -/
  unbacked   : List (Nat × Nat)
  /-- `TX_READY` (R6, R56). -/
  txReady    : Bool
  /-- `tx`, the beats emitted so far, oldest first (R56). -/
  tx         : List Beat
  /-- The answers given to the host so far, oldest first (R160). -/
  replies    : List Reply
  /-- What still comes from outside, next first (R58). -/
  inbox      : List Request
  /-- THE MODEL'S OWN: bytes of the running transfer's payload that were overwritten while BUSY, with the value each
  had before (R62). Empty means: payload stable. -/
  stale      : List Host.Cell
  /-- THE MODEL'S OWN: how many racing reads there were; the argument of `Config.raceChoice` (R62). -/
  raceCount  : Nat
  deriving DecidableEq, Repr

/-- Why a step stops with a fault: there is no constructor, because no step of this block faults. Its two exceptions
are next states (R186), a micro-operation that is not enabled leaves the state as it is (R64, R193), and nothing is
undefined (R54). Safe. -/
inductive Fault
  deriving DecidableEq, Repr

/-- Why a step is refused. -/
inductive Refusal
  /-- Raised by `exec` alone, in the arm of an operation that has no meaning yet; no arm of this model raises it. Safe:
  nothing can be proved of such an operation. -/
  | notModelled (mnemonic : String)
  deriving DecidableEq, Repr

/-- The state right after reset (R20, R200), with the platform at its defaults (R6), an empty payload space, nothing
emitted, nothing answered and nothing asked. -/
def State.reset : State where
  W          := Config.defaultW
  reportId   := 0
  chunkCap   := 0
  payloadLen := 0
  rid        := 0x00
  cap        := 0
  plen       := 0
  nfr        := 0
  seqIdx     := 0
  seqPhase   := .rid
  seqOff     := 0
  mode       := .idle
  errcode    := .none
  crc        := 0x00
  pmem       := []
  unbacked   := Config.unbackedDefault
  txReady    := Config.txReadyDefault
  tx         := []
  replies    := []
  inbox      := []
  stale      := []
  raceCount  := 0

end Sys2Proof.Machine
end

