-- ==== Sys2Proof/Machine/Operands.lean ====
section
/-! DEFINITION. The codes of the state's named values, the byte extractions of the frame format, and the arithmetic of
a transfer's position (spec/30_encoding.md R73, R74, R84, R85; spec/41_encoder.md R120, R121, R123, R128). -/

namespace Sys2Proof.Machine

open Sys2Proof

/-! Codes. -/

/-- R84. -/
def Phase.code : Phase → BitVec 3
  | .rid => 0
  | .flags => 1
  | .reml => 2
  | .remh => 3
  | .len => 4
  | .data => 5
  | .crc => 6

/-- R84: the code 7 names no phase. -/
def Phase.ofCode (c : BitVec 3) : Option Phase :=
  match c.toNat with
  | 0 => some .rid
  | 1 => some .flags
  | 2 => some .reml
  | 3 => some .remh
  | 4 => some .len
  | 5 => some .data
  | 6 => some .crc
  | _ => none

/-- R85. The host never reads this number: STATUS shows the mode as three flags. -/
def Mode.code : Mode → BitVec 2
  | .idle => 0
  | .busy => 1
  | .done => 2
  | .error => 3

/-- R180, R85. -/
def Exc.code : Exc → BitVec 4
  | .config => 1
  | .capacity => 2

/-- R31, R85. -/
def ErrCode.code : ErrCode → BitVec 4
  | .none => 0
  | .raised e => e.code

/-! Byte extractions: the only three truncations there are (R128). -/

/-- `v[7:0]` (R73, R74): `remaining_low` of a count, `length` of a data length. -/
def lowByte (v : Nat) : Byte := BitVec.ofNat 8 v

/-- `v[15:8]` (R73): `remaining_high` of a count. -/
def highByte (v : Nat) : Byte := BitVec.ofNat 8 (v / 256)

/-! Arithmetic on naturals, exact (R128). -/

/-- `nframes` (R120), for `C ≥ 1`. -/
def nframes (L C : Nat) : Nat := max 1 ((L + C - 1) / C)

/-- `datalen` (R121), for `C ≥ 1` and a frame index in range. -/
def datalen (i L C : Nat) : Nat := min C (L - i * C)

/-- `remaining` (R123), for a frame index in range. -/
def remaining (i N : Nat) : Nat := N - i - 1

/-! What the sequencer's position and the latched copies say of the frame being emitted (R130: `i`, `n`, `r`). The
micro-operations read the latched copies alone (R24). -/

/-- `n = datalen(i, plen, cap)`. -/
def State.dueLen (s : State) : Nat := datalen s.seqIdx.toNat s.plen s.cap

/-- `r = remaining(i, nfr)`. -/
def State.dueRemaining (s : State) : Nat := remaining s.seqIdx.toNat s.nfr.toNat

/-- The payload address of the frame's first data byte: `i * cap` (R54, R136). -/
def State.dueBase (s : State) : Nat := s.seqIdx.toNat * s.cap

/-- `a = i * cap + off` (R136, R139): the effective address of the one load. -/
def State.dueAddr (s : State) : Nat := s.dueBase + s.seqOff

end Sys2Proof.Machine
end

