-- ==== Sys2Proof/Machine/Flags.lean ====
section
/-! DEFINITION. The status flags of the block and the position flags of a frame, which share a word and nothing else
(spec/10_state.md R32, R33, R36; spec/41_encoder.md R122). -/

namespace Sys2Proof.Machine

open Sys2Proof

/-! The frame's flags byte (R72). -/

/-- FIRST. -/
def flagFirst : Byte := 0x80

/-- MIDDLE. -/
def flagMiddle : Byte := 0x40

/-- LAST. -/
def flagLast : Byte := 0x20

/-- `flagsof` (R122): the LAST test comes first. -/
def flagsof (i N : Nat) : Byte :=
  if i + 1 = N then flagLast else if i = 0 then flagFirst else flagMiddle

/-- The flags byte of the frame being emitted: computed each time, never stored (R33, R132). -/
def State.dueFlags (s : State) : Byte := flagsof s.seqIdx.toNat s.nfr.toNat

/-! The status flags, functions of `mode` (R32). -/

/-- BUSY. -/
def State.flagBusy (s : State) : Bool := decide (s.mode = .busy)

/-- DONE. -/
def State.flagDone (s : State) : Bool := decide (s.mode = .done)

/-- ERR. -/
def State.flagErr (s : State) : Bool := decide (s.mode = .error)

/-- STATUS (R36): BUSY in bit 0, DONE in bit 1, ERR in bit 2, bit 3 zero, ERRCODE in bits 7:4, the rest zero. -/
def State.statusWord (s : State) : BitVec 32 :=
  (s.errcode.code ++ (0 : BitVec 1) ++ BitVec.ofBool s.flagErr ++ BitVec.ofBool s.flagDone
    ++ BitVec.ofBool s.flagBusy : BitVec 8).setWidth 32

end Sys2Proof.Machine
end

