-- ==== Sys2Proof/Machine/FrameFormat.lean ====
section
/-! DEFINITION. The encoder as the pure functions the document gives (spec/41_encoder.md R124 to R127,
spec/30_encoding.md R70 to R76). -/

namespace Sys2Proof.Machine

open Sys2Proof

/-- `dataof` (R124): the slice `P[i*C : (i+1)*C]`, clamped to the end of `P`. -/
def dataof (i : Nat) (P : List Byte) (C : Nat) : List Byte := (P.drop (i * C)).take C

/-- The four header bytes after the report id: `flags ‖ remaining_low ‖ remaining_high ‖ length` (R70 to R74), for a
flags byte, a remaining count and a true data length. -/
def headerBytes (flags : Byte) (r n : Nat) : List Byte := [flags, lowByte r, highByte r, lowByte n]

/-- The checksummed part of a frame (R125). -/
def bodyBytes (flags : Byte) (r : Nat) (d : List Byte) : List Byte := headerBytes flags r d.length ++ d

/-- A frame around its body (R126): the report id before it, outside the checksum, and the checksum after it. -/
def wrapBody (rid : Byte) (body : List Byte) : List Byte := rid :: body ++ [crc8 body]

/-- `body(i)` of a payload `P` cut at capacity `C` (R125). -/
def bodyOf (i : Nat) (P : List Byte) (C : Nat) : List Byte :=
  bodyBytes (flagsof i (nframes P.length C)) (remaining i (nframes P.length C)) (dataof i P C)

/-- `frame(i)` (R126). -/
def frameOf (rid : Byte) (i : Nat) (P : List Byte) (C : Nat) : List Byte := wrapBody rid (bodyOf i P C)

/-- `encode` (R127): the configuration is checked first, then the capacity. -/
def encodeFrames (P : List Byte) (rid C : Nat) : Except Exc (List (List Byte)) :=
  if C < 1 ∨ 255 < rid then .error .config
  else if Config.nmax < nframes P.length C then .error .capacity
  else .ok ((List.range (nframes P.length C)).map fun i => frameOf (BitVec.ofNat 8 rid) i P C)

/-- A frame's bytes as beats (R56): `last` on the final byte and on no other. -/
def markLast : List Byte → List Beat
  | [] => []
  | [b] => [⟨b, true⟩]
  | b :: c :: f => ⟨b, false⟩ :: markLast (c :: f)

/-- The beats of one frame on the TX stream (R56). -/
def frameBeats (rid : Byte) (body : List Byte) : List Beat := markLast (wrapBody rid body)

end Sys2Proof.Machine
end

