-- ==== Sys2Proof/Machine/Ops.lean ====
section
/-! DEFINITION. The named operations over the state that the meanings share: the payload space, the TX stream, the
answers to the host, the checksum register, the sequencer's position, taking an exception and leaving one, reset, and
how the next operation comes to be (spec/20_memory.md, spec/60_exceptions.md R186, R188, spec/70_reset_and_hazards.md
R200, spec/41_encoder.md R129, R130). -/

namespace Sys2Proof.Machine

open Sys2Proof

/-! The payload space (R50). -/

/-- One byte of the payload space. -/
def Memory.read : Memory → Nat → Byte
  | [], _ => Config.unlistedPayloadByte
  | (k, v) :: m, a => if k = a then v else Memory.read m a

/-- Store one byte, keeping the canonical form: storing what an unlisted address reads as removes the entry. -/
def Memory.write : Memory → Nat → Byte → Memory
  | [], a, b => if b = Config.unlistedPayloadByte then [] else [(a, b)]
  | (k, v) :: m, a, b =>
    if k < a then (k, v) :: Memory.write m a b
    else if k = a then (if b = Config.unlistedPayloadByte then m else (a, b) :: m)
    else (if b = Config.unlistedPayloadByte then (k, v) :: m else (a, b) :: (k, v) :: m)

/-- The canonical form: addresses strictly rising, and no entry equal to what an unlisted address reads as. -/
abbrev Memory.wf (m : Memory) : Prop :=
  m.Pairwise (fun c d => c.1 < d.1) ∧ ∀ c ∈ m, c.2 ≠ Config.unlistedPayloadByte

/-- The `n` bytes from address `a`, lowest first: `MemRead(a, n)` of spec/00_scope.md section 5.3. -/
def Memory.slice (m : Memory) (a n : Nat) : List Byte := (List.range n).map fun k => m.read (a + k)

/-- `PBACKED(a)` (R6, R64): an address of the payload space, in no unbacked range. -/
abbrev State.backed (s : State) (a : Nat) : Prop :=
  a < 2 ^ s.W ∧ ∀ r ∈ s.unbacked, ¬ (r.1 ≤ a ∧ a < r.1 + r.2)

/-- Every one of the `n` addresses from `a` is backed. -/
abbrev State.backedFrom (s : State) (a n : Nat) : Prop := ∀ k ∈ List.range n, s.backed (a + k)

/-- The bytes that address `a` has held since `CMD.START`: the one it holds now, then the overwritten ones (R62). -/
def State.heldBytes (s : State) (a : Nat) : List Byte :=
  s.pmem.read a :: (s.stale.filter fun c => c.1 = a).map (·.2)

/-- `a` was overwritten while BUSY (R62). -/
abbrev State.raced (s : State) (a : Nat) : Prop := ∃ c ∈ s.stale, c.1 = a

/-- The byte `MemRead(a, 1)` returns (R51). On a racing address it is one of the bytes held since `CMD.START`, by a free
value: R62 says that the block does not say which. -/
def State.payloadByte (s : State) (a : Nat) : Byte :=
  if s.raced a then
    (s.heldBytes a).getD (Config.raceChoice s.raceCount % (s.heldBytes a).length) (s.pmem.read a)
  else s.pmem.read a

/-- A racing read uses up one free value. -/
def State.afterRead (s : State) (a : Nat) : State :=
  if s.raced a then { s with raceCount := s.raceCount + 1 } else s

/-- `MemRead` of `n` bytes one after the other, lowest address first, and the state after them. -/
def State.readRun (s : State) (a : Nat) : Nat → List Byte × State
  | 0 => ([], s)
  | n + 1 =>
    let rest := State.readRun (s.afterRead a) (a + 1) n
    (s.payloadByte a :: rest.1, rest.2)

/-- The platform places a byte (R50, R57). Where it backs no byte there is nothing to place. While BUSY, a change of a
byte of the running transfer's payload is a race (R62), and the byte it had is kept beside. -/
def State.placePayload (s : State) (a : Nat) (b : Byte) : State :=
  if s.backed a then
    { s with
      pmem := s.pmem.write a b
      stale :=
        if s.mode = .busy ∧ a < s.plen ∧ s.pmem.read a ≠ b then (a, s.pmem.read a) :: s.stale else s.stale }
  else s

/-! Outputs. -/

/-- `TxEmit(b, last)` (R56): one beat at the end of the trace. -/
def State.txEmit (s : State) (b : Byte) (last : Bool) : State := { s with tx := s.tx ++ [⟨b, last⟩] }

/-- `respond` (R160): the answer to the host access. -/
def State.respond (s : State) (r : Reply) : State := { s with replies := s.replies ++ [r] }

/-! The checksum engine (R104, R105). -/

/-- `crc <- 0x00`. -/
def State.crcClear (s : State) : State := { s with crc := crcInit }

/-- `crc <- crc8_byte(crc, b)`. -/
def State.crcAbsorb (s : State) (b : Byte) : State := { s with crc := crc8Byte s.crc b }

/-- A body byte is emitted and absorbed in one step (R132 to R136). -/
def State.emitBody (s : State) (b : Byte) : State := (s.txEmit b false).crcAbsorb b

/-! The sequencer's position (R28, R29). -/

/-- `seq <- (i, P, o)`. -/
def State.goto (s : State) (i : BitVec 17) (p : Phase) (o : Nat) : State :=
  { s with seqIdx := i, seqPhase := p, seqOff := o }

/-- `seq.phase <- P`. -/
def State.toPhase (s : State) (p : Phase) : State := { s with seqPhase := p }

/-- The end of a frame (R137): the next frame's RID, or after the last frame DONE. -/
def State.endFrame (s : State) : State :=
  if s.seqIdx.toNat + 1 = s.nfr.toNat then { s.goto s.nfr .rid 0 with mode := .done }
  else s.goto (BitVec.ofNat 17 (s.seqIdx.toNat + 1)) .rid 0

/-- `EMIT.<P>` is enabled (R130), for every phase but DATA, which asks for a backed address as well. -/
abbrev State.enabled (s : State) (p : Phase) : Prop := s.mode = .busy ∧ s.seqPhase = p ∧ s.txReady = true

/-! Transfers and exceptions. -/

/-- `mode <- IDLE; errcode <- 0`: what `CMD.START` does first (R129), and the whole of leaving ERROR or DONE by
`CMD.CLR` (R169, R188). -/
def State.leaveResult (s : State) : State := { s with mode := .idle, errcode := .none }

/-- `raise E` (R186): the one way an exception is taken. Nothing is saved, and there is no vector. -/
def State.takeException (s : State) (e : Exc) : State :=
  { s with mode := .error, errcode := .raised e, nfr := 0, seqIdx := 0, seqPhase := .rid, seqOff := 0 }

/-- An accepted `CMD.START` (R129) latches the operands and the frame count. It is also the point from which the
payload has to be stable, so no overwritten byte is remembered from before it (R60, R62). -/
def State.beginTransfer (s : State) : State :=
  { s with
    rid := BitVec.ofNat 8 s.reportId
    cap := s.chunkCap
    plen := s.payloadLen
    nfr := BitVec.ofNat 17 (nframes s.payloadLen s.chunkCap)
    seqIdx := 0
    seqPhase := .rid
    seqOff := 0
    mode := .busy
    stale := [] }

/-- The reset input (R200, R201): the thirteen pieces of the block's own state take their reset values, and nothing else
changes but the model's memory of a race, which ends with the transfer. -/
def State.resetBlock (s : State) : State :=
  { State.reset with
    W := s.W
    pmem := s.pmem
    unbacked := s.unbacked
    txReady := s.txReady
    tx := s.tx
    replies := s.replies
    inbox := s.inbox
    raceCount := s.raceCount }

/-! How the next operation comes to be (R58, R84, R130). -/

/-- The encoded operation that is due, if any. A host access is due when it is next in the order of R58. A turn of the
sequencer makes the phase code due while BUSY (R84, R130), and in a frame turn, between two frames, the flags byte of
the frame to come. With nothing left from outside it is always the sequencer's turn. An engine operation is due only
while the sequencer does not own the engine (R106). -/
def State.fetch (s : State) : Option OpWord :=
  match s.inbox with
  | [] | .tick :: _ => if s.mode = .busy then some (.seq s.seqPhase.code) else none
  | .frameTurn :: _ => if s.mode = .busy ∧ s.seqPhase = .rid then some (.frame s.dueFlags) else none
  | .host a :: _ => some (.host a)
  | .engine p :: _ => if s.mode = .busy then none else some (.engine p)
  | .reset :: _ | .payload _ _ :: _ | .txReady _ :: _ => none

/-- The entry that brought this step is used up. -/
def State.dropRequest (s : State) : State := { s with inbox := s.inbox.tail }

/-- A word that names no operation. Of the words `fetch` gives, only a host access can be one (R81, R84): it is
refused, which answers ERR and changes nothing (R83, R161). -/
def State.rejectWord (s : State) : OpWord → State
  | .host _ => s.respond .err
  | .frame _ | .seq _ | .engine _ => s

/-- A step in which no operation is due: an event from outside, or a turn in which nothing is enabled, which keeps all
state (R193). -/
def State.outside (s : State) : State :=
  match s.inbox with
  | .reset :: _ => s.dropRequest.resetBlock
  | .payload a b :: _ => s.dropRequest.placePayload a b
  | .txReady r :: _ => { s.dropRequest with txReady := r }
  | [] | .tick :: _ | .frameTurn :: _ | .host _ :: _ | .engine _ :: _ => s.dropRequest

/-- `s` made such that `w` is the operation that is due. A host access goes to the front of the inbox. A phase code is
due when the block is BUSY in that phase and has the turn. A frame kind is due in a frame turn at the start of a frame
whose place in its transfer gives that kind: frame 0 of 2, frame 1 of 3, frame 0 of 1 (R122). An engine operation is
due when asked for while not BUSY. A word that the block never holds changes nothing. -/
def State.placeWord (s : State) (w : OpWord) : State :=
  match w with
  | .host a => { s with inbox := .host a :: s.inbox }
  | .engine p => { s with inbox := .engine p :: s.inbox, mode := if s.mode = .busy then .idle else s.mode }
  | .seq c =>
    match Phase.ofCode c with
    | some p => { s with inbox := .tick :: s.inbox, mode := .busy, seqPhase := p }
    | none => s
  | .frame f =>
    match decodeFlags f with
    | .ok .frameFirst => { s with inbox := .frameTurn :: s.inbox, mode := .busy, seqPhase := .rid, seqIdx := 0, nfr := 2 }
    | .ok .frameMiddle => { s with inbox := .frameTurn :: s.inbox, mode := .busy, seqPhase := .rid, seqIdx := 1, nfr := 3 }
    | .ok .frameLast => { s with inbox := .frameTurn :: s.inbox, mode := .busy, seqPhase := .rid, seqIdx := 0, nfr := 1 }
    | _ => s

end Sys2Proof.Machine
end

