-- ==== Sys2Proof/Machine/Engine.lean ====
section
/-! DEFINITION. The two operations of the checksum engine (spec/40_checksum.md R104, R105). -/

namespace Sys2Proof.Machine

open Sys2Proof

/-- `CRC.CLR` (R104). -/
def execCrcClr (s : State) : Host.Outcome State Fault Refusal := .next s.crcClear

/-- `CRC.BYTE(b)` (R105): atomic, and it shifts eight times for every byte. -/
def execCrcByte (b : Byte) (s : State) : Host.Outcome State Fault Refusal := .next (s.crcAbsorb b)

end Sys2Proof.Machine
end

