-- ==== Sys2Proof/Machine/FrameOps.lean ====
section
/-! DEFINITION. The three frame kinds as operations: a whole frame in one step (spec/30_encoding.md R70, R80;
spec/41_encoder.md R122, R125, R126). D21 calls an implementation that takes coarser steps than one beat a refinement
of the micro-operations; this is the coarsest that keeps frames apart (notes/assumptions/8.md). -/

namespace Sys2Proof.Machine

open Sys2Proof

/-- A whole frame of the kind `flags` can be emitted: the sequencer stands at the start of a frame of that kind, the
consumer is ready, and every payload byte of the frame is backed. -/
abbrev State.frameEnabled (s : State) (flags : Byte) : Prop :=
  s.enabled .rid ∧ s.dueFlags = flags ∧ s.backedFrom s.dueBase s.dueLen

/-- The frame the sequencer stands at (R125, R126): its beats go to TX, its checksum stays in `crc` (R137), and the
position moves to the next frame or to DONE. -/
def State.emitFrame (s : State) : State :=
  let run := s.readRun s.dueBase s.dueLen
  let body := bodyBytes s.dueFlags s.dueRemaining run.1
  { run.2 with tx := s.tx ++ frameBeats s.rid body, crc := crc8 body }.endFrame

/-- One frame of a kind; not enabled, it leaves the state as it is. -/
def frameOperation (flags : Byte) (s : State) : Host.Outcome State Fault Refusal :=
  .next (if s.frameEnabled flags then s.emitFrame else s)

/-- FRAME.FIRST (R80, R122). -/
def execFrameFirst (s : State) : Host.Outcome State Fault Refusal := frameOperation flagFirst s

/-- FRAME.MIDDLE (R80, R122). -/
def execFrameMiddle (s : State) : Host.Outcome State Fault Refusal := frameOperation flagMiddle s

/-- FRAME.LAST (R80, R122). -/
def execFrameLast (s : State) : Host.Outcome State Fault Refusal := frameOperation flagLast s

end Sys2Proof.Machine
end

