-- ==== Sys2Proof/Machine/HostOps.lean ====
section
/-! DEFINITION. The host operations on the register interface (spec/42_host_interface.md R162 to R177,
spec/41_encoder.md R129). -/

namespace Sys2Proof.Machine

open Sys2Proof

/-! Reads: no side effect, accepted in every mode (R55, R161). A register of a fixed layout is answered as that layout's
number, so its bits from 32 up read 0 at every width (R34). -/

/-- Answer a read. -/
def answer (v : Nat) (s : State) : Host.Outcome State Fault Refusal := .next (s.respond (.data v))

/-- R172: a write-only register reads 0. -/
def execRdCtrl (s : State) : Host.Outcome State Fault Refusal := answer 0 s

/-- R173. -/
def execRdStatus (s : State) : Host.Outcome State Fault Refusal := answer s.statusWord.toNat s

/-- R165: the operand register, not the latched copy. -/
def execRdReportId (s : State) : Host.Outcome State Fault Refusal := answer s.reportId s

/-- R165: the operand register, not the latched copy. -/
def execRdChunkCap (s : State) : Host.Outcome State Fault Refusal := answer s.chunkCap s

/-- R165: the operand register, not the latched copy. -/
def execRdPayloadLen (s : State) : Host.Outcome State Fault Refusal := answer s.payloadLen s

/-- R174, R37. -/
def execRdFrameCount (s : State) : Host.Outcome State Fault Refusal := answer (s.nfr.toNat) s

/-- R175, R38. -/
def execRdFrameIndex (s : State) : Host.Outcome State Fault Refusal := answer (s.seqIdx.toNat) s

/-- R172: a write-only register reads 0. -/
def execRdCrcData (s : State) : Host.Outcome State Fault Refusal := answer 0 s

/-- R176, R40. -/
def execRdCrcValue (s : State) : Host.Outcome State Fault Refusal := answer (s.crc.toNat) s

/-- R177, R41. -/
def execRdSeqPhase (s : State) : Host.Outcome State Fault Refusal := answer (s.seqPhase.code.toNat) s

/-- R177, R41: all `W` bits. -/
def execRdSeqOff (s : State) : Host.Outcome State Fault Refusal := answer s.seqOff s

/-! Operand writes: every value is stored whole, in every mode (R162 to R164, R25). -/

/-- R162. -/
def execWrReportId (v : Nat) (s : State) : Host.Outcome State Fault Refusal :=
  .next ({ s with reportId := v }.respond .ok)

/-- R163. -/
def execWrChunkCap (v : Nat) (s : State) : Host.Outcome State Fault Refusal :=
  .next ({ s with chunkCap := v }.respond .ok)

/-- R164. -/
def execWrPayloadLen (v : Nat) (s : State) : Host.Outcome State Fault Refusal :=
  .next ({ s with payloadLen := v }.respond .ok)

/-! Commands, and the data-in register of the engine. -/

/-- R161: a refused access answers ERR and changes no state. -/
def refuse (s : State) : Host.Outcome State Fault Refusal := .next (s.respond .err)

/-- R167: accepted in every mode. -/
def execCmdNop (s : State) : Host.Outcome State Fault Refusal := .next (s.respond .ok)

/-- R129: refused while BUSY; otherwise the old result is dropped, the configuration is checked first (R185), then the
capacity, and an exception still answers OK. -/
def execCmdStart (s : State) : Host.Outcome State Fault Refusal :=
  if s.mode = .busy then refuse s
  else if s.chunkCap < 1 ∨ 0xFF < s.reportId then .next ((s.leaveResult.takeException .config).respond .ok)
  else if Config.nmax < nframes s.payloadLen s.chunkCap then
    .next ((s.leaveResult.takeException .capacity).respond .ok)
  else .next (s.leaveResult.beginTransfer.respond .ok)

/-- R169: refused while BUSY; otherwise the result is left, and nothing else changes. -/
def execCmdClr (s : State) : Host.Outcome State Fault Refusal :=
  if s.mode = .busy then refuse s else .next (s.leaveResult.respond .ok)

/-- R170: refused while BUSY. -/
def execCmdCrcClr (s : State) : Host.Outcome State Fault Refusal :=
  if s.mode = .busy then refuse s else .next (s.crcClear.respond .ok)

/-- R171: refused while BUSY, and refused, not truncated, above 0xFF. -/
def execWrCrcData (v : Nat) (s : State) : Host.Outcome State Fault Refusal :=
  if s.mode = .busy ∨ 0xFF < v then refuse s else .next ((s.crcAbsorb (BitVec.ofNat 8 v)).respond .ok)

end Sys2Proof.Machine
end

