-- ==== Sys2Proof/Machine/Sequencer.lean ====
section
/-! DEFINITION. The seven micro-operations of the sequencer (spec/41_encoder.md R130 to R137). One that is not enabled
leaves the state as it is: the sequencer waits and keeps all state (R64, R130, R193). -/

namespace Sys2Proof.Machine

open Sys2Proof

/-- R131: the report id is sent, not absorbed, and the checksum register is cleared for the new body. -/
def execEmitRid (s : State) : Host.Outcome State Fault Refusal :=
  .next (if s.enabled .rid then ((s.txEmit s.rid false).crcClear).toPhase .flags else s)

/-- R132. -/
def execEmitFlags (s : State) : Host.Outcome State Fault Refusal :=
  .next (if s.enabled .flags then (s.emitBody s.dueFlags).toPhase .reml else s)

/-- R133: `r[7:0]`. -/
def execEmitReml (s : State) : Host.Outcome State Fault Refusal :=
  .next (if s.enabled .reml then (s.emitBody (lowByte s.dueRemaining)).toPhase .remh else s)

/-- R134: `r[15:8]`. -/
def execEmitRemh (s : State) : Host.Outcome State Fault Refusal :=
  .next (if s.enabled .remh then (s.emitBody (highByte s.dueRemaining)).toPhase .len else s)

/-- R135: `n[7:0]` is sent, and the branch tests the true `n`. -/
def execEmitLen (s : State) : Host.Outcome State Fault Refusal :=
  .next
    (if s.enabled .len then
      (s.emitBody (lowByte s.dueLen)).goto s.seqIdx (if s.dueLen = 0 then .crc else .data) 0
    else s)

/-- R136: one payload byte is read, sent and absorbed in one step. An unbacked address disables it (R64). -/
def execEmitData (s : State) : Host.Outcome State Fault Refusal :=
  .next
    (if s.enabled .data ∧ s.backed s.dueAddr then
      ((s.afterRead s.dueAddr).emitBody (s.payloadByte s.dueAddr)).goto s.seqIdx
        (if s.seqOff + 1 = s.dueLen then .crc else .data) (s.seqOff + 1)
    else s)

/-- R137: the checksum is sent with `last = 1` and not absorbed; then the next frame, or DONE. -/
def execEmitCrc (s : State) : Host.Outcome State Fault Refusal :=
  .next (if s.enabled .crc then (s.txEmit s.crc true).endFrame else s)

end Sys2Proof.Machine
end

