-- ==== Sys2Proof/Machine/Dispatch.lean ====
section
/-! DEFINITION. One arm per operation. -/

namespace Sys2Proof.Machine

open Sys2Proof

def exec (i : Instr) (s : State) : Host.Outcome State Fault Refusal :=
  match i with
  | .frameFirst => Sys2Proof.Machine.execFrameFirst s
  | .frameMiddle => Sys2Proof.Machine.execFrameMiddle s
  | .frameLast => Sys2Proof.Machine.execFrameLast s
  | .rdCtrl => Sys2Proof.Machine.execRdCtrl s
  | .cmdNop => Sys2Proof.Machine.execCmdNop s
  | .cmdStart => Sys2Proof.Machine.execCmdStart s
  | .cmdClr => Sys2Proof.Machine.execCmdClr s
  | .cmdCrcClr => Sys2Proof.Machine.execCmdCrcClr s
  | .rdStatus => Sys2Proof.Machine.execRdStatus s
  | .rdReportId => Sys2Proof.Machine.execRdReportId s
  | .wrReportId v => Sys2Proof.Machine.execWrReportId v s
  | .rdChunkCap => Sys2Proof.Machine.execRdChunkCap s
  | .wrChunkCap v => Sys2Proof.Machine.execWrChunkCap v s
  | .rdPayloadLen => Sys2Proof.Machine.execRdPayloadLen s
  | .wrPayloadLen v => Sys2Proof.Machine.execWrPayloadLen v s
  | .rdFrameCount => Sys2Proof.Machine.execRdFrameCount s
  | .rdFrameIndex => Sys2Proof.Machine.execRdFrameIndex s
  | .rdCrcData => Sys2Proof.Machine.execRdCrcData s
  | .wrCrcData v => Sys2Proof.Machine.execWrCrcData v s
  | .rdCrcValue => Sys2Proof.Machine.execRdCrcValue s
  | .rdSeqPhase => Sys2Proof.Machine.execRdSeqPhase s
  | .rdSeqOff => Sys2Proof.Machine.execRdSeqOff s
  | .emitRid => Sys2Proof.Machine.execEmitRid s
  | .emitFlags => Sys2Proof.Machine.execEmitFlags s
  | .emitReml => Sys2Proof.Machine.execEmitReml s
  | .emitRemh => Sys2Proof.Machine.execEmitRemh s
  | .emitLen => Sys2Proof.Machine.execEmitLen s
  | .emitData => Sys2Proof.Machine.execEmitData s
  | .emitCrc => Sys2Proof.Machine.execEmitCrc s
  | .crcClr => Sys2Proof.Machine.execCrcClr s
  | .crcByte b => Sys2Proof.Machine.execCrcByte b s

end Sys2Proof.Machine
end

