-- ==== Sys2Proof/Machine/Step.lean ====
section
/-! DEFINITION. One step: one atomic transition in the total order of spec/20_memory.md R58. -/

namespace Sys2Proof.Machine

open Sys2Proof

/-- If an operation is due, it is decoded and run, or rejected; otherwise the step is an event from outside, or a turn
in which nothing is enabled. -/
def step (s : State) : Host.Outcome State Fault Refusal :=
  match s.fetch with
  | some w =>
    match decode s.W w with
    | .ok i => exec i s.dropRequest
    | .error _ => .next (s.dropRequest.rejectWord w)
  | none => .next s.outside

/-- `s` with the operation that the opcode table's numbering writes as `w` made the one that is due
(notes/assumptions/11.md). -/
def State.withFetchWord (s : State) (nbits w : Nat) : State :=
  match tableWord s.W nbits w with
  | some word => s.placeWord word
  | none => s

end Sys2Proof.Machine
end

