-- ==== Sys2Proof/Machine/Notation.lean ====
section
/-! DEFINITION. The host notation and its pseudo-operations (spec/30_encoding.md R86, R87): how a host program becomes
entries of the inbox. -/

namespace Sys2Proof.Machine

open Sys2Proof

/-- `WR <REG>, <value>` (R86), on a register data path of `W` bits. -/
def wr (W : Nat) (r : Reg) (v : Nat) : Request := .host (writeAccess W r v)

/-- `RD <REG>` (R86). -/
def rd (W : Nat) (r : Reg) : Request := .host (readAccess W r)

/-- `CMD NOP` (R86). -/
def cmdNopLine (W : Nat) : Request := wr W .ctrl 0

/-- `CMD START` (R86). -/
def cmdStartLine (W : Nat) : Request := wr W .ctrl 1

/-- `CMD CLR` (R86). -/
def cmdClrLine (W : Nat) : Request := wr W .ctrl 2

/-- `CMD CRC_CLR` (R86). -/
def cmdCrcClrLine (W : Nat) : Request := wr W .ctrl 4

/-- `ENCODE rid, cap, len` (R87). -/
def encodeLines (W rid cap len : Nat) : List Request :=
  [wr W .reportId rid, wr W .chunkCap cap, wr W .payloadLen len, cmdStartLine W]

/-- `CRC8 b0, b1, ..., bk` (R87). -/
def crc8Lines (W : Nat) (bytes : List Byte) : List Request :=
  cmdCrcClrLine W :: bytes.map (fun b => wr W .crcData b.toNat) ++ [rd W .crcValue]

/-- `WAIT` in the untimed model (R87): let the block run until `mode != BUSY`, for at most so many steps. -/
def waitLine : Nat → State → Host.Outcome State Fault Refusal
  | 0, s => .next s
  | k + 1, s =>
    if s.mode = .busy then
      match step s with
      | .next t => waitLine k t
      | .fault r => .fault r
      | .refused r => .refused r
    else .next s

/-- `k` steps of the machine. -/
def runSteps (k : Nat) (s : State) : Host.Outcome State Fault Refusal := core.run k s

end Sys2Proof.Machine
end

