-- ==== Sys2Proof/Safety.lean ====
section
/-! DEFINITION. What a well-kept state is, and what a transfer in progress still owes the TX stream: the terms in which
the claims about whole runs are stated (spec/10_state.md R28 to R32, R38, R44; spec/20_memory.md R59, R62;
spec/93_implementation_defined.md Q13). -/

namespace Sys2Proof.Machine

open Sys2Proof

/-- What holds in every state of every run. -/
structure State.Inv (s : State) : Prop where
  /-- R6: `W >= 32`. -/
  width   : 32 ≤ s.W
  /-- R20: a register of `W` bits holds a number of `W` bits. -/
  ranges  : s.reportId < 2 ^ s.W ∧ s.chunkCap < 2 ^ s.W ∧ s.payloadLen < 2 ^ s.W ∧ s.cap < 2 ^ s.W ∧
    s.plen < 2 ^ s.W ∧ s.seqOff < 2 ^ s.W
  /-- R50: a payload-space address has `W` bits. -/
  space   : ∀ c ∈ s.pmem, c.1 < 2 ^ s.W
  /-- The payload space is in its canonical form. -/
  memory  : s.pmem.wf
  /-- R31: `errcode != 0` exactly when `mode == ERROR`. -/
  errcode : s.errcode ≠ .none ↔ s.mode = .error
  /-- R24, R28, Q13: the frame count needs no more than its 17 bits. -/
  count   : s.nfr.toNat ≤ Config.nmax
  /-- R28, R38: outside BUSY the sequencer stands at the place after the last frame of the last transfer. -/
  rest    : s.mode ≠ .busy → s.seqIdx = s.nfr ∧ s.seqPhase = .rid ∧ s.seqOff = 0
  /-- R24, R28: while BUSY the latched copies describe a transfer, and the frame index is in it. -/
  run     : s.mode = .busy →
    1 ≤ s.cap ∧ s.nfr.toNat = nframes s.plen s.cap ∧ s.seqIdx.toNat < s.nfr.toNat
  /-- R28: `seq.off` is 0 except in the phases DATA and CRC. -/
  offset  : s.seqPhase ≠ .data → s.seqPhase ≠ .crc → s.seqOff = 0
  /-- R28: in the phase DATA it is the index of the next data byte. -/
  offData : s.seqPhase = .data → s.seqOff < s.dueLen
  /-- R28: in the phase CRC it is the frame's data length. -/
  offCrc  : s.seqPhase = .crc → s.seqOff = s.dueLen

/-- The payload of the running transfer: `PMEM[0 .. plen-1]` (R50). -/
def State.payload (s : State) : List Byte := s.pmem.slice 0 s.plen

/-- `body(i)` of the running transfer (R125). -/
def State.body (s : State) (i : Nat) : List Byte := bodyOf i s.payload s.cap

/-- How many bytes of the current frame's body have been emitted (R28, R44). -/
def State.bodySent (s : State) : Nat :=
  match s.seqPhase with
  | .rid | .flags => 0
  | .reml => 1
  | .remh => 2
  | .len => 3
  | .data | .crc => 4 + s.seqOff

/-- How many beats of the current frame have been emitted: none before the report id. -/
def State.beatsSent (s : State) : Nat :=
  match s.seqPhase with
  | .rid => 0
  | .flags | .reml | .remh | .len | .data | .crc => 1 + s.bodySent

/-- R44: within a frame, `crc` is the checksum of the part of the body already emitted. -/
def State.crcInStep (s : State) : Prop :=
  s.mode = .busy → s.seqPhase ≠ .rid → s.crc = crc8 ((s.body s.seqIdx.toNat).take s.bodySent)

/-- The beats of the frames `i, i+1, .., nfr-1` of the running transfer. -/
def State.framesFrom (s : State) (i : Nat) : List Beat :=
  ((List.range' i (s.nfr.toNat - i)).map fun j => frameBeats s.rid (s.body j)).flatten

/-- The beats that the running transfer has still to emit; none outside BUSY. -/
def State.pending (s : State) : List Beat :=
  if s.mode = .busy then (s.framesFrom s.seqIdx.toNat).drop s.beatsSent else []

/-- Every payload byte of the running transfer is backed (R64, R203). -/
def State.payloadBacked (s : State) : Prop := ∀ a < s.plen, s.backed a

/-- The premise "payload stable" (R62): no payload byte of the running transfer was overwritten since its
`CMD.START`. -/
def State.payloadStable (s : State) : Prop := s.stale = []

/-! The printed table `T` (spec/95_test_vectors.md K10): four rows of it a piece. -/

/-- Rows 0x to 3x of the table `T`. -/
def crcTableLow : List Byte :=
  [0x00, 0x07, 0x0E, 0x09, 0x1C, 0x1B, 0x12, 0x15, 0x38, 0x3F, 0x36, 0x31, 0x24, 0x23, 0x2A, 0x2D]
    ++ [0x70, 0x77, 0x7E, 0x79, 0x6C, 0x6B, 0x62, 0x65, 0x48, 0x4F, 0x46, 0x41, 0x54, 0x53, 0x5A, 0x5D]
    ++ [0xE0, 0xE7, 0xEE, 0xE9, 0xFC, 0xFB, 0xF2, 0xF5, 0xD8, 0xDF, 0xD6, 0xD1, 0xC4, 0xC3, 0xCA, 0xCD]
    ++ [0x90, 0x97, 0x9E, 0x99, 0x8C, 0x8B, 0x82, 0x85, 0xA8, 0xAF, 0xA6, 0xA1, 0xB4, 0xB3, 0xBA, 0xBD]

/-- Rows 4x to 7x of the table `T`. -/
def crcTableMid : List Byte :=
  [0xC7, 0xC0, 0xC9, 0xCE, 0xDB, 0xDC, 0xD5, 0xD2, 0xFF, 0xF8, 0xF1, 0xF6, 0xE3, 0xE4, 0xED, 0xEA]
    ++ [0xB7, 0xB0, 0xB9, 0xBE, 0xAB, 0xAC, 0xA5, 0xA2, 0x8F, 0x88, 0x81, 0x86, 0x93, 0x94, 0x9D, 0x9A]
    ++ [0x27, 0x20, 0x29, 0x2E, 0x3B, 0x3C, 0x35, 0x32, 0x1F, 0x18, 0x11, 0x16, 0x03, 0x04, 0x0D, 0x0A]
    ++ [0x57, 0x50, 0x59, 0x5E, 0x4B, 0x4C, 0x45, 0x42, 0x6F, 0x68, 0x61, 0x66, 0x73, 0x74, 0x7D, 0x7A]

/-- Rows 8x to Bx of the table `T`. -/
def crcTableHigh : List Byte :=
  [0x89, 0x8E, 0x87, 0x80, 0x95, 0x92, 0x9B, 0x9C, 0xB1, 0xB6, 0xBF, 0xB8, 0xAD, 0xAA, 0xA3, 0xA4]
    ++ [0xF9, 0xFE, 0xF7, 0xF0, 0xE5, 0xE2, 0xEB, 0xEC, 0xC1, 0xC6, 0xCF, 0xC8, 0xDD, 0xDA, 0xD3, 0xD4]
    ++ [0x69, 0x6E, 0x67, 0x60, 0x75, 0x72, 0x7B, 0x7C, 0x51, 0x56, 0x5F, 0x58, 0x4D, 0x4A, 0x43, 0x44]
    ++ [0x19, 0x1E, 0x17, 0x10, 0x05, 0x02, 0x0B, 0x0C, 0x21, 0x26, 0x2F, 0x28, 0x3D, 0x3A, 0x33, 0x34]

/-- Rows Cx to Fx of the table `T`. -/
def crcTableTop : List Byte :=
  [0x4E, 0x49, 0x40, 0x47, 0x52, 0x55, 0x5C, 0x5B, 0x76, 0x71, 0x78, 0x7F, 0x6A, 0x6D, 0x64, 0x63]
    ++ [0x3E, 0x39, 0x30, 0x37, 0x22, 0x25, 0x2C, 0x2B, 0x06, 0x01, 0x08, 0x0F, 0x1A, 0x1D, 0x14, 0x13]
    ++ [0xAE, 0xA9, 0xA0, 0xA7, 0xB2, 0xB5, 0xBC, 0xBB, 0x96, 0x91, 0x98, 0x9F, 0x8A, 0x8D, 0x84, 0x83]
    ++ [0xDE, 0xD9, 0xD0, 0xD7, 0xC2, 0xC5, 0xCC, 0xCB, 0xE6, 0xE1, 0xE8, 0xEF, 0xFA, 0xFD, 0xF4, 0xF3]

/-- The table `T` that R110 speaks of, as spec/95_test_vectors.md prints it. -/
def crcTable : List Byte := crcTableLow ++ crcTableMid ++ crcTableHigh ++ crcTableTop

end Sys2Proof.Machine
end

