-- ==== Sys2Proof/Certificates/Slice0/Obligations.lean ====
section
/-! DEFINITION. The statements for the provers. They come from the numbered rules of spec/, file by file: encodings,
how a step comes to run an operation, the checksum functions, the encoder functions, the host operations, exceptions,
the sequencer, whole frames, and the rules about the whole machine. -/

open Sys2Proof Sys2Proof.Machine

/-! ## Encodings (spec/30_encoding.md) -/

/-- At every width of an instance, every well-formed operation decodes from its own encoding, whatever its operand. The
second clause says the same of the number in which the opcode table packs that word: that a FRAME and a SEQ word are told
apart by their value in one byte is the model's choice, notes/assumptions/24.md, and the HOST pattern at a width above 32 is
the model's inference, notes/assumptions/25.md. -/
def Obligations.DecodeOfEncodeIsTheOperation : Prop :=
  ∀ (W : Nat) (i : Instr), 32 ≤ W → i.wellFormed W = true →
    decode W (encode W i) = .ok i ∧
    (encode W i).pattern W < 2 ^ (encode W i).format.tableBits W ∧
    decodeTableWordAt W ((encode W i).format.tableBits W) ((encode W i).pattern W) = some i

/-- The decoder is the opcode table (spec/30_encoding.md section 7): a word decodes to an operation of a row exactly
when the row is of the word's format and matches its pattern. A host access has a packed pattern when it is one whole
word at an offset of six bits. The spec gives the HOST rows for `W = 32`; that they keep their form at other widths is
the model's inference, notes/assumptions/25.md. -/
def Obligations.DecoderIsTheOpcodeTable : Prop :=
  ∀ (W : Nat) (w : OpWord) (r : Row), 32 ≤ W →
    (∀ a, w = .host a → a.bits = W ∧ a.addr < 64) →
    ((∃ i, decode W w = .ok i ∧ i.row W = r) ↔
      r ∈ opcodeTable W ∧ r.format = w.format ∧ r.matchesPattern (w.pattern W) = true)

/-- Within each format no two rows match the same pattern (a sentence of spec/30_encoding.md section 7; at widths other
than 32 for the rows of notes/assumptions/25.md). -/
def Obligations.NoTwoRowsMatchOnePattern : Prop :=
  ∀ W : Nat, 32 ≤ W → (opcodeTable W).Pairwise fun r q =>
    r.format = q.format → ∀ p : Nat, ¬ (r.matchesPattern p = true ∧ q.matchesPattern p = true)

/-- Words written out from the spec: host accesses from spec/95_test_vectors.md P1 to P4 in each direction, a pattern of the
engine, a flags byte, a phase code, and reserved encodings. That a number of eight bits is read as a phase code below 8
and as a flags byte from 0x20 on is the model's choice, notes/assumptions/24.md. -/
def Obligations.WordsOfTheSpecDecode : Prop :=
  decodeTableWord 40 0x5C00000031 = some (.wrCrcData 0x31) ∧
  decodeTableWord 40 0x5000011170 = some (.wrPayloadLen 70000) ∧
  decodeTableWord 40 0x4000000001 = some .cmdStart ∧
  decodeTableWord 40 0x1400000000 = some .rdFrameCount ∧
  decodeTableWord 8 0x40 = some .frameMiddle ∧
  decodeTableWord 8 0x06 = some .emitCrc ∧
  decodeTableWord 16 0x142 = some (.crcByte 0x42) ∧
  decodeTableWord 40 0x4000000003 = none ∧
  decodeTableWord 40 0x5C00000100 = none ∧
  decodeTableWord 8 0x07 = none ∧
  decodeTableWord 8 0xA0 = none

/-! ## A step runs the operation that is due (spec/20_memory.md section 7, spec/41_encoder.md section 2) -/

/-- A step at which a word is due decodes it and is `exec` of the operation at the state less the entry that brought
it; a word that names no operation is rejected; with no word due the step is what comes from outside. That the order of
what comes is a list in State is the model's choice, notes/assumptions/2.md. -/
def Obligations.StepRunsTheDecodedOperation : Prop :=
  ∀ s : State,
    (∀ w i, s.fetch = some w → decode s.W w = .ok i → step s = exec i s.dropRequest) ∧
    (∀ w e, s.fetch = some w → decode s.W w = .error e → step s = .next (s.dropRequest.rejectWord w)) ∧
    (s.fetch = none → step s = .next s.outside)

/-- While BUSY, a turn of the sequencer runs the micro-operation that the phase names (spec/30_encoding.md section 5,
the table of phase codes). -/
def Obligations.SequencerTurnRunsThePhase : Prop :=
  ∀ s : State, s.mode = .busy → (s.inbox = [] ∨ ∃ rest, s.inbox = .tick :: rest) →
    (s.seqPhase = .rid → step s = exec .emitRid s.dropRequest) ∧
    (s.seqPhase = .flags → step s = exec .emitFlags s.dropRequest) ∧
    (s.seqPhase = .reml → step s = exec .emitReml s.dropRequest) ∧
    (s.seqPhase = .remh → step s = exec .emitRemh s.dropRequest) ∧
    (s.seqPhase = .len → step s = exec .emitLen s.dropRequest) ∧
    (s.seqPhase = .data → step s = exec .emitData s.dropRequest) ∧
    (s.seqPhase = .crc → step s = exec .emitCrc s.dropRequest)

/-- A host access that encodes a well-formed operation runs it, in every mode; an engine operation asked for outside a
transfer runs (the model's choice, notes/assumptions/10.md), and while BUSY it does not. -/
def Obligations.RequestsRunTheirOperations : Prop :=
  ∀ (s : State) (rest : List Request) (i : Instr), 32 ≤ s.W → i.wellFormed s.W = true →
    (∀ a, encode s.W i = .host a → s.inbox = .host a :: rest → step s = exec i { s with inbox := rest }) ∧
    (∀ p, encode s.W i = .engine p → s.inbox = .engine p :: rest →
      step s = if s.mode = .busy then .next { s with inbox := rest } else exec i { s with inbox := rest })

/-! ## The checksum functions (spec/40_checksum.md) -/

/-- R109: the bijections, how a step is undone, and their two consequences. -/
def Obligations.ChecksumStepsAreBijections : Prop :=
  (∀ r : Byte, (crc8Bit r).getLsbD 0 = r.getLsbD 7) ∧
  (∀ r : Byte, r =
    ((if (crc8Bit r).getLsbD 0 then crc8Bit r ^^^ 0x07 else crc8Bit r) >>> 1) |||
      (if (crc8Bit r).getLsbD 0 then 0x80 else 0x00)) ∧
  Function.Bijective crc8Bit ∧
  (∀ b, Function.Bijective fun r => crc8Byte r b) ∧
  (∀ r, Function.Bijective fun b => crc8Byte r b) ∧
  (∀ (p q : List Byte) (a b : Byte), a ≠ b → crc8 (p ++ a :: q) ≠ crc8 (p ++ b :: q)) ∧
  (∀ (p q : List Byte) (a : Byte) (k : Nat), k < 8 →
    crc8 (p ++ a :: q) ≠ crc8 (p ++ (a ^^^ (1 : Byte) <<< k) :: q)) ∧
  (∀ r t : Byte, ∃ b, crc8Byte r b = t ∧ ∀ c, crc8Byte r c = t → c = b)

/-- R110: linearity, the form `T[r ^ b]` with `T[v] = crc8_byte(0x00, v)` for the printed table `T`, and the residue. -/
def Obligations.ChecksumIsLinearWithResidueZero : Prop :=
  (∀ r b : Byte, crc8Byte r b = crc8Byte r 0x00 ^^^ crc8Byte 0x00 b) ∧
  (∀ r b : Byte, crc8Byte r b = crc8Byte 0x00 (r ^^^ b)) ∧
  (∀ v : Byte, crcTable[v.toNat]? = some (crc8Byte 0x00 v)) ∧
  (∀ bytes : List Byte, crc8 (bytes ++ [crc8 bytes]) = 0x00)

/-- R107: the empty sequence, sequences of zero bytes, and leading zero bytes. -/
def Obligations.ZeroBytesLeadWithoutEffect : Prop :=
  crc8 [] = 0x00 ∧
  (∀ n : Nat, crc8 (List.replicate n 0x00) = 0x00) ∧
  (∀ (n : Nat) (bytes : List Byte), crc8 (List.replicate n 0x00 ++ bytes) = crc8 bytes)

/-- R104 and R105: the engine operations complete in every state and change `crc` alone. -/
def Obligations.EngineOperationsWriteTheChecksumRegister : Prop :=
  ∀ s : State,
    exec .crcClr s = .next { s with crc := 0x00 } ∧
    ∀ b : Byte, exec (.crcByte b) s = .next { s with crc := crc8Byte s.crc b }

/-- The pseudo-operation CRC8 of spec/30_encoding.md section 6, written by a host while not BUSY, answers the checksum of
its bytes in one step a line, and changes nothing but `crc`. -/
def Obligations.HostChecksumProgramAnswersTheChecksum : Prop :=
  ∀ (s : State) (bytes : List Byte) (rest : List Request), 32 ≤ s.W →
    s.mode ≠ .busy → s.inbox = crc8Lines s.W bytes ++ rest →
    runSteps (bytes.length + 2) s = .next { s with
      crc := crc8 bytes
      replies := s.replies ++ List.replicate (bytes.length + 1) .ok ++ [.data (crc8 bytes).toNat]
      inbox := rest }

/-! ## The encoder functions (spec/41_encoder.md parts 1 and 3) -/

/-- R120: `nframes` is the least positive count whose frames hold the payload. -/
def Obligations.FrameCountIsTheCeiling : Prop :=
  ∀ L C : Nat, 1 ≤ C →
    nframes 0 C = 1 ∧
    (1 ≤ L → nframes L C = (L + C - 1) / C ∧ nframes L C = L / C + (if L % C ≠ 0 then 1 else 0) ∧
      (nframes L C - 1) * C < L ∧ L ≤ nframes L C * C) ∧
    (Config.nmax < nframes L C ↔ Config.nmax * C < L)

/-- R121: the data lengths of the frames of a transfer, and their sum. -/
def Obligations.DataLengthsPartitionThePayload : Prop :=
  ∀ L C : Nat, 1 ≤ C →
    (∀ i, i < nframes L C → i * C ≤ L ∧ (1 ≤ L → i * C < L) ∧ datalen i L C = min C (L - i * C)) ∧
    (∀ (P : List Byte) (i : Nat), P.length = L → (dataof i P C).length = datalen i L C) ∧
    (∀ i, i + 1 < nframes L C → datalen i L C = C) ∧
    datalen (nframes L C - 1) L C = L - C * (nframes L C - 1) ∧
    (1 ≤ L → 1 ≤ datalen (nframes L C - 1) L C ∧ datalen (nframes L C - 1) L C ≤ C) ∧
    (L = 0 → datalen (nframes L C - 1) L C = 0) ∧
    ((List.range (nframes L C)).map fun i => datalen i L C).sum = L

/-- R124 and R144: every slice holds its bytes of the payload and no others, the slices in index order are the payload,
and the data field of a frame is its bytes 5 up to but not including the last. -/
def Obligations.SlicesReassembleThePayload : Prop :=
  ∀ (P : List Byte) (C : Nat), 1 ≤ C →
    (∀ i, (dataof i P C).length = datalen i P.length C) ∧
    (∀ i k, k < C → (dataof i P C)[k]? = P[i * C + k]?) ∧
    ((List.range (nframes P.length C)).map fun i => dataof i P C).flatten = P ∧
    ∀ (rid : Byte) (i : Nat), ((frameOf rid i P C).drop 5).dropLast = dataof i P C

/-- R70 to R74, R76 and R126: the bytes of a frame, one by one, and its length. -/
def Obligations.FrameLayout : Prop :=
  ∀ (rid : Byte) (i : Nat) (P : List Byte) (C : Nat), 1 ≤ C → P.length ≤ Config.nmax * C →
    i < nframes P.length C →
    (frameOf rid i P C).length = datalen i P.length C + 6 ∧
    (frameOf rid i P C)[0]? = some rid ∧
    (frameOf rid i P C)[1]? = some (if i = nframes P.length C - 1 then 0x20 else if i = 0 then 0x80 else 0x40) ∧
    (∃ lo hi : Byte, (frameOf rid i P C)[2]? = some lo ∧ (frameOf rid i P C)[3]? = some hi ∧
      lo.toNat + 256 * hi.toNat = nframes P.length C - i - 1) ∧
    (∃ len : Byte, (frameOf rid i P C)[4]? = some len ∧ len.toNat = datalen i P.length C % 256) ∧
    (∀ k, k < datalen i P.length C → (frameOf rid i P C)[5 + k]? = P[i * C + k]?) ∧
    (frameOf rid i P C)[5 + datalen i P.length C]? =
      some (crc8 (((frameOf rid i P C).drop 1).take (datalen i P.length C + 4)))

/-- R142: which frames of a transfer carry which flag, with exactly one flag in every frame. -/
def Obligations.FlagsMarkThePositions : Prop :=
  ∀ N : Nat, 1 ≤ N →
    (∀ i, i < N → (flagsof i N = 0x20 ↔ i = N - 1)) ∧
    (∀ i, i < N → (flagsof i N = 0x80 ↔ i = 0 ∧ 2 ≤ N)) ∧
    (∀ i, i < N → (flagsof i N = 0x40 ↔ 1 ≤ i ∧ i < N - 1)) ∧
    (∀ i, flagsof i N = 0x80 ∨ flagsof i N = 0x40 ∨ flagsof i N = 0x20) ∧
    ((List.range N).filter fun i => flagsof i N = 0x40).length = N - 2

/-- R141 and R143: the remaining counts of a transfer, and the length byte against the true count. -/
def Obligations.RemainingAndLengthFidelity : Prop :=
  ∀ (rid : Byte) (P : List Byte) (C : Nat), 1 ≤ C →
    (P.length = 0 → nframes P.length C = 1) ∧
    (0 < P.length → nframes P.length C = (P.length + C - 1) / C) ∧
    remaining (nframes P.length C - 1) (nframes P.length C) = 0 ∧
    remaining 0 (nframes P.length C) = nframes P.length C - 1 ∧
    (∀ i, i < nframes P.length C → remaining i (nframes P.length C) = nframes P.length C - i - 1) ∧
    (∀ i, i + 1 < nframes P.length C →
      remaining (i + 1) (nframes P.length C) + 1 = remaining i (nframes P.length C)) ∧
    (∀ i, i < nframes P.length C → (remaining i (nframes P.length C) = 0 ↔ i = nframes P.length C - 1)) ∧
    ∀ i, i < nframes P.length C → ∃ len : Byte, (frameOf rid i P C)[4]? = some len ∧
      (i ≠ nframes P.length C - 1 → len.toNat = C % 256) ∧
      (i = nframes P.length C - 1 → len.toNat = (P.length - C * (nframes P.length C - 1)) % 256) ∧
      (len.toNat = datalen i P.length C ↔ datalen i P.length C ≤ 255)

/-- R81: what the encoder never emits, over every transfer it accepts. -/
def Obligations.EncoderNeverEmitsTheImpossible : Prop :=
  ∀ (P : List Byte) (rid C : Nat) (frames : List (List Byte)), encodeFrames P rid C = .ok frames →
    ∀ f ∈ frames, ∃ (report flags lo hi len : Byte) (tail : List Byte),
      f = report :: flags :: lo :: hi :: len :: tail ∧
      6 ≤ f.length ∧
      (flags = 0x80 ∨ flags = 0x40 ∨ flags = 0x20) ∧
      (flags = 0x80 → ¬ (lo = 0 ∧ hi = 0)) ∧
      (flags = 0x20 → lo = 0 ∧ hi = 0) ∧
      (flags = 0x40 → ¬ (lo = 0 ∧ hi = 0)) ∧
      f.length - 6 ≤ C ∧
      (f.length = 6 → flags = 0x20)

/-- R145: both forms in which a receiver can check a frame. -/
def Obligations.FramesCheckToZero : Prop :=
  ∀ (rid : Byte) (i : Nat) (P : List Byte) (C : Nat),
    crc8 ((frameOf rid i P C).drop 1) = 0x00 ∧
    (frameOf rid i P C).getLast? = some (crc8 ((frameOf rid i P C).drop 1).dropLast)

/-! ## Host operations (spec/42_host_interface.md) -/

/-- R165, R172 and R174 to R177, and the answer of R173: every read decodes from its access whatever the data lines hold,
completes in every state, answers the register's value, and changes nothing else. -/
def Obligations.ReadsAnswerAndChangeNothing : Prop :=
  (∀ (W : Nat) (w : BitVec W),
    decode W (.host ⟨.read, 0x00, W, w⟩) = .ok .rdCtrl ∧
    decode W (.host ⟨.read, 0x04, W, w⟩) = .ok .rdStatus ∧
    decode W (.host ⟨.read, 0x08, W, w⟩) = .ok .rdReportId ∧
    decode W (.host ⟨.read, 0x0C, W, w⟩) = .ok .rdChunkCap ∧
    decode W (.host ⟨.read, 0x10, W, w⟩) = .ok .rdPayloadLen ∧
    decode W (.host ⟨.read, 0x14, W, w⟩) = .ok .rdFrameCount ∧
    decode W (.host ⟨.read, 0x18, W, w⟩) = .ok .rdFrameIndex ∧
    decode W (.host ⟨.read, 0x1C, W, w⟩) = .ok .rdCrcData ∧
    decode W (.host ⟨.read, 0x20, W, w⟩) = .ok .rdCrcValue ∧
    decode W (.host ⟨.read, 0x24, W, w⟩) = .ok .rdSeqPhase ∧
    decode W (.host ⟨.read, 0x28, W, w⟩) = .ok .rdSeqOff) ∧
  ∀ s : State,
    exec .rdCtrl s = .next { s with replies := s.replies ++ [.data 0] } ∧
    exec .rdCrcData s = .next { s with replies := s.replies ++ [.data 0] } ∧
    exec .rdReportId s = .next { s with replies := s.replies ++ [.data s.reportId] } ∧
    exec .rdChunkCap s = .next { s with replies := s.replies ++ [.data s.chunkCap] } ∧
    exec .rdPayloadLen s = .next { s with replies := s.replies ++ [.data s.payloadLen] } ∧
    exec .rdSeqOff s = .next { s with replies := s.replies ++ [.data s.seqOff] } ∧
    exec .rdStatus s = .next { s with replies := s.replies ++ [.data
      ((if s.mode = .busy then 1 else 0) + (if s.mode = .done then 2 else 0) + (if s.mode = .error then 4 else 0)
        + 16 * s.errcode.code.toNat)] } ∧
    exec .rdFrameCount s = .next { s with replies := s.replies ++ [.data s.nfr.toNat] } ∧
    exec .rdFrameIndex s = .next { s with replies := s.replies ++ [.data s.seqIdx.toNat] } ∧
    exec .rdCrcValue s = .next { s with replies := s.replies ++ [.data s.crc.toNat] } ∧
    exec .rdSeqPhase s = .next { s with replies := s.replies ++ [.data s.seqPhase.code.toNat] }

/-- R173: the word that RD.STATUS answers, and that it is one of five values in every state that meets the invariant. -/
def Obligations.StatusReadsOneOfFiveValues : Prop :=
  ∀ s : State, s.Inv →
    ∃ v : Nat, exec .rdStatus s = .next { s with replies := s.replies ++ [.data v] } ∧
      v = (if s.mode = .busy then 1 else 0) + (if s.mode = .done then 2 else 0)
        + (if s.mode = .error then 4 else 0) + 16 * s.errcode.code.toNat ∧
      ((s.mode = .idle ∧ v = 0x00) ∨ (s.mode = .busy ∧ v = 0x01) ∨ (s.mode = .done ∧ v = 0x02) ∨
        (s.mode = .error ∧ s.errcode = .raised .config ∧ v = 0x14) ∨
        (s.mode = .error ∧ s.errcode = .raised .capacity ∧ v = 0x24))

/-- R162 to R164: an operand write decodes from its access with any data, stores every value whole, in every mode, and
changes nothing else; what CMD.START will not accept is stored all the same, and makes the next CMD.START raise. -/
def Obligations.OperandWritesStoreWholeWords : Prop :=
  (∀ (W : Nat) (w : BitVec W),
    decode W (.host ⟨.write, 0x08, W, w⟩) = .ok (.wrReportId w.toNat) ∧
    decode W (.host ⟨.write, 0x0C, W, w⟩) = .ok (.wrChunkCap w.toNat) ∧
    decode W (.host ⟨.write, 0x10, W, w⟩) = .ok (.wrPayloadLen w.toNat)) ∧
  ∀ (s : State) (v : Nat),
    (s.mode ≠ .busy → 0xFF < v →
      ∃ t u, exec (.wrReportId v) s = .next t ∧ exec .cmdStart t = .next u ∧ u.errcode = .raised .config) ∧
    (s.mode ≠ .busy → v = 0 →
      ∃ t u, exec (.wrChunkCap v) s = .next t ∧ exec .cmdStart t = .next u ∧ u.errcode = .raised .config) ∧
    (s.mode ≠ .busy → 1 ≤ s.chunkCap → s.reportId ≤ 0xFF →
      65536 < nframes v s.chunkCap →
      ∃ t u, exec (.wrPayloadLen v) s = .next t ∧ exec .cmdStart t = .next u ∧ u.errcode = .raised .capacity) ∧
    exec (.wrReportId v) s = .next { s with reportId := v, replies := s.replies ++ [.ok] } ∧
    exec (.wrChunkCap v) s = .next { s with chunkCap := v, replies := s.replies ++ [.ok] } ∧
    exec (.wrPayloadLen v) s = .next { s with payloadLen := v, replies := s.replies ++ [.ok] }

/-- R167, R169 and R170: CMD.NOP in every mode, CMD.CLR and CMD.CRC_CLR accepted outside BUSY and refused in it. -/
def Obligations.CommandsActOrAreRefused : Prop :=
  (∀ (W : Nat) (w : BitVec W),
    (w.toNat = 0 → decode W (.host ⟨.write, 0x00, W, w⟩) = .ok .cmdNop) ∧
    (w.toNat = 2 → decode W (.host ⟨.write, 0x00, W, w⟩) = .ok .cmdClr) ∧
    (w.toNat = 4 → decode W (.host ⟨.write, 0x00, W, w⟩) = .ok .cmdCrcClr)) ∧
  ∀ s : State,
    exec .cmdNop s = .next { s with replies := s.replies ++ [.ok] } ∧
    (s.mode ≠ .busy →
      exec .cmdClr s = .next { s with mode := .idle, errcode := .none, replies := s.replies ++ [.ok] } ∧
      exec .cmdCrcClr s = .next { s with crc := 0x00, replies := s.replies ++ [.ok] }) ∧
    (s.mode = .busy →
      exec .cmdClr s = .next { s with replies := s.replies ++ [.err] } ∧
      exec .cmdCrcClr s = .next { s with replies := s.replies ++ [.err] })

/-- R171: WR.CRC_DATA absorbs one byte outside BUSY, and is refused, not truncated, above 0xFF or while BUSY. -/
def Obligations.ChecksumDataIsAbsorbedOrRefused : Prop :=
  (∀ (W : Nat) (w : BitVec W), w.toNat ≤ 0xFF →
    decode W (.host ⟨.write, 0x1C, W, w⟩) = .ok (.wrCrcData w.toNat)) ∧
  ∀ (s : State) (v : Nat),
    (s.mode ≠ .busy → v ≤ 0xFF →
      ∃ b : Byte, b.toNat = v ∧
        exec (.wrCrcData v) s = .next { s with crc := crc8Byte s.crc b, replies := s.replies ++ [.ok] }) ∧
    (s.mode = .busy ∨ 0xFF < v →
      exec (.wrCrcData v) s = .next { s with replies := s.replies ++ [.err] })

/-- R161: an access is answered ERR, with no change of state whatever, for the seven causes and for nothing else. -/
def Obligations.AccessesAreRefusedForSevenCauses : Prop :=
  ∀ (s : State) (a : Access) (rest : List Request), s.inbox = .host a :: rest →
    (((a.addr % 4 ≠ 0 ∨ 0x2C ≤ a.addr) ∨
        a.bits ≠ s.W ∨
        (a.dir = .write ∧ a.addr ∈ [0x04, 0x14, 0x18, 0x20, 0x24, 0x28]) ∨
        (a.dir = .write ∧ a.addr = 0x00 ∧ a.wdata.toNat ∉ [0, 1, 2, 4]) ∨
        (a.dir = .write ∧ a.addr = 0x00 ∧ a.wdata.toNat ∈ [1, 2, 4] ∧ s.mode = .busy) ∨
        (a.dir = .write ∧ a.addr = 0x1C ∧ s.mode = .busy) ∨
        (a.dir = .write ∧ a.addr = 0x1C ∧ 0xFF < a.wdata.toNat)) →
      step s = .next { s with inbox := rest, replies := s.replies ++ [.err] }) ∧
    (¬ ((a.addr % 4 ≠ 0 ∨ 0x2C ≤ a.addr) ∨
        a.bits ≠ s.W ∨
        (a.dir = .write ∧ a.addr ∈ [0x04, 0x14, 0x18, 0x20, 0x24, 0x28]) ∨
        (a.dir = .write ∧ a.addr = 0x00 ∧ a.wdata.toNat ∉ [0, 1, 2, 4]) ∨
        (a.dir = .write ∧ a.addr = 0x00 ∧ a.wdata.toNat ∈ [1, 2, 4] ∧ s.mode = .busy) ∨
        (a.dir = .write ∧ a.addr = 0x1C ∧ s.mode = .busy) ∨
        (a.dir = .write ∧ a.addr = 0x1C ∧ 0xFF < a.wdata.toNat)) →
      ∃ t r, step s = .next t ∧ t.replies = s.replies ++ [r] ∧ r ≠ .err)

/-! ## Starting a transfer, and the two exceptions (spec/41_encoder.md R129, spec/60_exceptions.md) -/

/-- R129, the accepted case: the operands and the exact frame count are latched, the sequencer is set to the first byte,
and nothing else changes but the answer (and the model's own memory of races, which starts empty). -/
def Obligations.StartLatchesTheTransfer : Prop :=
  ∀ s : State, s.mode ≠ .busy → 1 ≤ s.chunkCap → s.reportId ≤ 0xFF →
    s.payloadLen ≤ Config.nmax * s.chunkCap →
    ∃ t : State, exec .cmdStart s = .next t ∧
      t.rid.toNat = s.reportId ∧
      t.nfr.toNat = max 1 ((s.payloadLen + s.chunkCap - 1) / s.chunkCap) ∧
      t = { s with
        rid := t.rid, cap := s.chunkCap, plen := s.payloadLen, nfr := t.nfr
        seqIdx := 0, seqPhase := .rid, seqOff := 0, mode := .busy, errcode := .none
        replies := s.replies ++ [.ok], stale := [] }

/-- R181, R182, R185 and R186: which exception is raised, that the configuration comes first, and the whole of the
entry; the access is answered OK. A refusal while BUSY comes before both, and a valid configuration of up to 65536 frames
raises neither. -/
def Obligations.StartTakesTheExceptions : Prop :=
  ∀ s : State,
    (1 ≤ s.chunkCap →
      (65536 < nframes s.payloadLen s.chunkCap ↔ 65536 * s.chunkCap < s.payloadLen)) ∧
    (s.W = 32 → s.payloadLen < 2 ^ s.W → 65536 * s.chunkCap < s.payloadLen → s.chunkCap ≤ 65535) ∧
    (s.mode ≠ .busy → 1 ≤ s.chunkCap → s.reportId ≤ 0xFF →
      nframes s.payloadLen s.chunkCap ≤ 65536 →
      ∃ t, exec .cmdStart s = .next t ∧ t.mode = .busy ∧ t.errcode = .none) ∧
    (s.mode = .busy → exec .cmdStart s = .next { s with replies := s.replies ++ [.err] }) ∧
    (s.mode ≠ .busy → s.chunkCap = 0 ∨ 0xFF < s.reportId →
      exec .cmdStart s = .next { s with
        mode := .error, errcode := .raised .config, nfr := 0, seqIdx := 0, seqPhase := .rid, seqOff := 0
        replies := s.replies ++ [.ok] }) ∧
    (s.mode ≠ .busy → 1 ≤ s.chunkCap → s.reportId ≤ 0xFF → 65536 * s.chunkCap < s.payloadLen →
      exec .cmdStart s = .next { s with
        mode := .error, errcode := .raised .capacity, nfr := 0, seqIdx := 0, seqPhase := .rid, seqOff := 0
        replies := s.replies ++ [.ok] })

/-- R196 and R187: a CMD.START ends in exactly one of three ways, and emits no beat in any of them. -/
def Obligations.StartEndsInOneOfThreeWays : Prop :=
  ∀ s t : State, exec .cmdStart s = .next t →
    t.tx = s.tx ∧
    ((s.mode ≠ .busy ∧ t.mode = .busy ∧ t.errcode = .none ∧ t.replies = s.replies ++ [.ok] ∧
        1 ≤ s.chunkCap ∧ s.reportId ≤ 0xFF ∧
        nframes s.payloadLen s.chunkCap ≤ Config.nmax) ∨
      (s.mode ≠ .busy ∧ t.mode = .error ∧ t.errcode ≠ .none ∧ t.replies = s.replies ++ [.ok]) ∨
      (s.mode = .busy ∧ t = { s with replies := s.replies ++ [.err] }))

/-- R180: the two exceptions and their codes, and that CMD.START raises them and no other operation does. -/
def Obligations.OnlyStartRaisesExceptions : Prop :=
  (ErrCode.raised .config).code = 1 ∧ (ErrCode.raised .capacity).code = 2 ∧
  ∀ (i : Instr) (s t : State), exec i s = .next t → t.errcode ≠ .none →
    t.errcode = s.errcode ∨
      (i = .cmdStart ∧ s.mode ≠ .busy ∧ t.mode = .error ∧
        (t.errcode = .raised .config ∨ t.errcode = .raised .capacity))

/-- Every change of `mode` in a step is one of those that spec/10_state.md section 5 lists, with what brings it. The clause
about a frame turn is the model's, notes/assumptions/9.md. -/
def Obligations.ModeChangesOnlyAsListed : Prop :=
  ∀ s t : State, step s = .next t → t.mode ≠ s.mode →
    ((∃ rest, s.inbox = .reset :: rest) ∧ t.mode = .idle) ∨
    ((∃ rest, s.inbox = .host (writeAccess s.W .ctrl 1) :: rest) ∧ s.mode ≠ .busy ∧ (t.mode = .busy ∨ t.mode = .error)) ∨
    ((∃ rest, s.inbox = .host (writeAccess s.W .ctrl 2) :: rest) ∧ s.mode ≠ .busy ∧ t.mode = .idle) ∨
    (s.mode = .busy ∧ t.mode = .done ∧ s.txReady = true ∧ s.seqIdx.toNat + 1 = s.nfr.toNat ∧
      (((s.inbox = [] ∨ ∃ rest, s.inbox = .tick :: rest) ∧ s.seqPhase = .crc) ∨
        ((∃ rest, s.inbox = .frameTurn :: rest) ∧ s.seqPhase = .rid)))

/-! ## The sequencer (spec/41_encoder.md part 2) -/

/-- R131 to R134: the four micro-operations before the length byte, their phase codes, and what each does when it is
enabled. -/
def Obligations.HeaderMicroOperations : Prop :=
  (∀ W : Nat, decode W (.seq 0) = .ok .emitRid ∧ decode W (.seq 1) = .ok .emitFlags ∧
    decode W (.seq 2) = .ok .emitReml ∧ decode W (.seq 3) = .ok .emitRemh) ∧
  ∀ s : State, s.mode = .busy → s.txReady = true →
    (s.seqPhase = .rid →
      exec .emitRid s = .next { s with tx := s.tx ++ [⟨s.rid, false⟩], crc := 0x00, seqPhase := .flags }) ∧
    (s.seqPhase = .flags → ∃ f : Byte,
      f = (if s.seqIdx.toNat + 1 = s.nfr.toNat then 0x20 else if s.seqIdx = 0 then 0x80 else 0x40) ∧
      exec .emitFlags s = .next { s with
        tx := s.tx ++ [⟨f, false⟩], crc := crc8Byte s.crc f, seqPhase := .reml }) ∧
    (s.seqPhase = .reml → ∃ b : Byte, b.toNat = (s.nfr.toNat - s.seqIdx.toNat - 1) % 256 ∧
      exec .emitReml s = .next { s with
        tx := s.tx ++ [⟨b, false⟩], crc := crc8Byte s.crc b, seqPhase := .remh }) ∧
    (s.seqPhase = .remh → ∃ b : Byte, b.toNat = (s.nfr.toNat - s.seqIdx.toNat - 1) / 256 % 256 ∧
      exec .emitRemh s = .next { s with
        tx := s.tx ++ [⟨b, false⟩], crc := crc8Byte s.crc b, seqPhase := .len })

/-- R135: the length byte is truncated, the branch is not. -/
def Obligations.LengthMicroOperation : Prop :=
  (∀ W : Nat, decode W (.seq 4) = .ok .emitLen) ∧
  ∀ s : State, s.mode = .busy → s.txReady = true → s.seqPhase = .len →
    ∃ b : Byte, b.toNat = min s.cap (s.plen - s.seqIdx.toNat * s.cap) % 256 ∧
      exec .emitLen s = .next { s with
        tx := s.tx ++ [⟨b, false⟩]
        crc := crc8Byte s.crc b
        seqOff := 0
        seqPhase := if min s.cap (s.plen - s.seqIdx.toNat * s.cap) = 0 then .crc else .data }

/-- R136: one payload byte is read at `i * cap + off`, sent, and absorbed, in one step. The premise says that no host
write has raced for that byte. -/
def Obligations.DataMicroOperation : Prop :=
  (∀ W : Nat, decode W (.seq 5) = .ok .emitData) ∧
  ∀ s : State, s.mode = .busy → s.txReady = true → s.seqPhase = .data →
    s.backed (s.seqIdx.toNat * s.cap + s.seqOff) →
    (∀ c ∈ s.stale, c.1 ≠ s.seqIdx.toNat * s.cap + s.seqOff) →
    ∃ b : Byte, b = s.pmem.read (s.seqIdx.toNat * s.cap + s.seqOff) ∧
      exec .emitData s = .next { s with
        tx := s.tx ++ [⟨b, false⟩]
        crc := crc8Byte s.crc b
        seqOff := s.seqOff + 1
        seqPhase := if s.seqOff + 1 = min s.cap (s.plen - s.seqIdx.toNat * s.cap)
          then .crc else .data }

/-- The racing read (the model's reading of spec/20_memory.md section 10, notes/assumptions/6.md): the micro-operation still
completes, with one of the bytes that the address has held since CMD.START, and everything else is as without the race.
Which of them it is, is a free value. -/
def Obligations.RacingDataMicroOperation : Prop :=
  ∀ s : State, s.mode = .busy → s.txReady = true → s.seqPhase = .data →
    s.backed (s.seqIdx.toNat * s.cap + s.seqOff) →
    (∃ c ∈ s.stale, c.1 = s.seqIdx.toNat * s.cap + s.seqOff) →
    ∃ b : Byte,
      (b = s.pmem.read (s.seqIdx.toNat * s.cap + s.seqOff) ∨
        (s.seqIdx.toNat * s.cap + s.seqOff, b) ∈ s.stale) ∧
      exec .emitData s = .next { s with
        tx := s.tx ++ [⟨b, false⟩]
        crc := crc8Byte s.crc b
        seqOff := s.seqOff + 1
        seqPhase := if s.seqOff + 1 = min s.cap (s.plen - s.seqIdx.toNat * s.cap)
          then .crc else .data
        raceCount := s.raceCount + 1 }

/-- R137: the checksum beat ends the frame; the last frame ends the transfer. -/
def Obligations.ChecksumMicroOperation : Prop :=
  (∀ W : Nat, decode W (.seq 6) = .ok .emitCrc) ∧
  ∀ s : State, s.mode = .busy → s.txReady = true → s.seqPhase = .crc →
    (s.seqIdx.toNat + 1 = s.nfr.toNat →
      exec .emitCrc s = .next { s with
        tx := s.tx ++ [⟨s.crc, true⟩], seqIdx := s.nfr, seqPhase := .rid, seqOff := 0, mode := .done }) ∧
    (s.seqIdx.toNat + 1 ≠ s.nfr.toNat →
      exec .emitCrc s = .next { s with
        tx := s.tx ++ [⟨s.crc, true⟩], seqIdx := s.seqIdx + 1, seqPhase := .rid, seqOff := 0 })

/-- A micro-operation that is not enabled leaves the state as it is (the model's reading of spec/41_encoder.md section 2,
notes/assumptions/7.md). -/
def Obligations.MicroOperationsWaitUntilEnabled : Prop :=
  ∀ s : State,
    (¬ (s.mode = .busy ∧ s.seqPhase = .rid ∧ s.txReady = true) → exec .emitRid s = .next s) ∧
    (¬ (s.mode = .busy ∧ s.seqPhase = .flags ∧ s.txReady = true) → exec .emitFlags s = .next s) ∧
    (¬ (s.mode = .busy ∧ s.seqPhase = .reml ∧ s.txReady = true) → exec .emitReml s = .next s) ∧
    (¬ (s.mode = .busy ∧ s.seqPhase = .remh ∧ s.txReady = true) → exec .emitRemh s = .next s) ∧
    (¬ (s.mode = .busy ∧ s.seqPhase = .len ∧ s.txReady = true) → exec .emitLen s = .next s) ∧
    (¬ (s.mode = .busy ∧ s.seqPhase = .data ∧ s.txReady = true ∧
        s.backed (s.seqIdx.toNat * s.cap + s.seqOff)) → exec .emitData s = .next s) ∧
    (¬ (s.mode = .busy ∧ s.seqPhase = .crc ∧ s.txReady = true) → exec .emitCrc s = .next s)

/-- R64: with an unbacked address due, the block stays BUSY for ever, emits nothing, and only reset ends it, whatever
else comes from outside; with everything backed, as the default says, no address is unbacked. -/
def Obligations.UnbackedAddressSticksUntilReset : Prop :=
  (∀ a < 2 ^ State.reset.W, State.reset.backed a) ∧
  (∀ (s : State) (rest : List Request), s.inbox = .reset :: rest → ∃ t, step s = .next t ∧ t.mode = .idle) ∧
  ∀ (k : Nat) (s : State), s.mode = .busy → s.seqPhase = .data →
    ¬ s.backed (s.seqIdx.toNat * s.cap + s.seqOff) → Request.reset ∉ s.inbox →
    ∃ t, runSteps k s = .next t ∧ t.mode = .busy ∧ t.seqPhase = .data ∧ t.seqIdx = s.seqIdx ∧ t.seqOff = s.seqOff ∧
      t.tx = s.tx ∧ t.crc = s.crc

/-- The one load (spec/41_encoder.md R139): its address lies in the payload, the load after it is at the next address, over
the frame boundary too, and the last one is at `plen - 1`. -/
def Obligations.LoadAddressesAscendWithinThePayload : Prop :=
  ∀ s t : State, s.Inv → s.mode = .busy → s.txReady = true → s.seqPhase = .data → s.backed s.dueAddr →
    exec .emitData s = .next t →
    s.dueAddr = s.seqIdx.toNat * s.cap + s.seqOff ∧
    s.dueAddr < s.plen ∧
    (t.seqPhase = .data → t.dueAddr = s.dueAddr + 1) ∧
    (t.seqPhase = .crc → s.seqIdx.toNat + 1 < s.nfr.toNat → (s.seqIdx.toNat + 1) * s.cap = s.dueAddr + 1) ∧
    (t.seqPhase = .crc → s.seqIdx.toNat + 1 = s.nfr.toNat → s.dueAddr + 1 = s.plen)

/-! ## Whole frames (spec/30_encoding.md R80, spec/41_encoder.md R126; notes/assumptions/8.md) -/

/-- A frame operation of the kind the sequencer stands at emits that frame (spec/41_encoder.md part 1) and moves to the
next. That a frame kind is run as one operation is the model's choice, notes/assumptions/8.md. -/
def Obligations.FrameOperationEmitsItsFrame : Prop :=
  ∀ (s : State) (kind : Byte) (i : Instr),
    (kind, i) ∈ [((0x80 : Byte), Instr.frameFirst), (0x40, .frameMiddle), (0x20, .frameLast)] →
    s.mode = .busy → s.seqPhase = .rid → s.txReady = true → s.stale = [] →
    flagsof s.seqIdx.toNat s.nfr.toNat = kind →
    s.backedFrom (s.seqIdx.toNat * s.cap) (datalen s.seqIdx.toNat s.plen s.cap) →
    ∃ (body : List Byte) (t : State),
      body = [kind, lowByte (remaining s.seqIdx.toNat s.nfr.toNat), highByte (remaining s.seqIdx.toNat s.nfr.toNat),
          lowByte (datalen s.seqIdx.toNat s.plen s.cap)]
        ++ s.pmem.slice (s.seqIdx.toNat * s.cap) (datalen s.seqIdx.toNat s.plen s.cap) ∧
      exec i s = .next t ∧
      t = { s with
        tx := s.tx ++ (s.rid :: body).map (fun b => ⟨b, false⟩) ++ [⟨crc8 body, true⟩]
        crc := crc8 body
        seqIdx := t.seqIdx, seqPhase := .rid, seqOff := 0, mode := t.mode } ∧
      (kind = 0x20 → t.seqIdx = s.nfr ∧ t.mode = .done) ∧
      (kind ≠ 0x20 → t.seqIdx = s.seqIdx + 1 ∧ t.mode = .busy)

/-- Refinement: a frame operation is exactly the run of the frame's micro-operations, `n + 6` of them, races included
(the model's choice of a coarser step, notes/assumptions/8.md). -/
def Obligations.FrameOperationIsTheRunOfItsMicroOperations : Prop :=
  ∀ (s : State) (kind : Byte) (i : Instr),
    (kind, i) ∈ [((0x80 : Byte), Instr.frameFirst), (0x40, .frameMiddle), (0x20, .frameLast)] →
    s.mode = .busy → s.seqPhase = .rid → s.txReady = true → s.inbox = [] →
    flagsof s.seqIdx.toNat s.nfr.toNat = kind →
    s.backedFrom (s.seqIdx.toNat * s.cap) (datalen s.seqIdx.toNat s.plen s.cap) →
    runSteps (datalen s.seqIdx.toNat s.plen s.cap + 6) s = exec i s

/-- A frame operation of another kind than the due one, or not at the start of a frame, or with the consumer not ready or
a byte not backed, leaves the state as it is (notes/assumptions/8.md). -/
def Obligations.FrameOperationsWaitUntilEnabled : Prop :=
  ∀ (s : State) (kind : Byte) (i : Instr),
    (kind, i) ∈ [((0x80 : Byte), Instr.frameFirst), (0x40, .frameMiddle), (0x20, .frameLast)] →
    ¬ (s.mode = .busy ∧ s.seqPhase = .rid ∧ s.txReady = true ∧
      flagsof s.seqIdx.toNat s.nfr.toNat = kind ∧
      s.backedFrom (s.seqIdx.toNat * s.cap) (datalen s.seqIdx.toNat s.plen s.cap)) →
    exec i s = .next s

/-! ## Rules about the whole machine -/

/-- R200: what the reset input does, in every mode; that every register then reads 0 and no micro-operation is enabled;
and that a block that is not BUSY emits nothing and becomes BUSY by nothing but a CMD.START. -/
def Obligations.ResetSetsEveryRegister : Prop :=
  (∀ (s : State) (rest : List Request), s.inbox = .reset :: rest →
    ∃ t, step s = .next t ∧
      (t.reportId = 0 ∧ t.chunkCap = 0 ∧ t.payloadLen = 0 ∧ t.rid = 0 ∧ t.cap = 0 ∧ t.plen = 0 ∧ t.nfr = 0) ∧
      (t.seqIdx = 0 ∧ t.seqPhase = .rid ∧ t.seqOff = 0 ∧ t.mode = .idle ∧ t.errcode = .none ∧ t.crc = 0x00) ∧
      (t.pmem = s.pmem ∧ t.tx = s.tx) ∧
      (∀ r : Reg, exec (decodeRead r) t = .next { t with replies := t.replies ++ [.data 0] }) ∧
      ∀ i ∈ seqOps, exec i t = .next t) ∧
  ∀ s t : State, s.mode ≠ .busy → step s = .next t →
    t.tx = s.tx ∧ (t.mode = .busy → ∃ rest, s.inbox = .host (writeAccess s.W .ctrl 1) :: rest)

/-- The state after reset holds the reset column of R20, an empty TX stream, and the invariant. -/
def Obligations.ResetStateMeetsTheInvariant : Prop :=
  State.reset.Inv ∧ State.reset.tx = [] ∧ State.reset.mode = .idle ∧ State.reset.errcode = .none ∧
    State.reset.crc = 0x00 ∧ State.reset.reportId = 0 ∧ State.reset.chunkCap = 0 ∧ State.reset.payloadLen = 0 ∧
    State.reset.rid = 0 ∧ State.reset.cap = 0 ∧ State.reset.plen = 0 ∧ State.reset.nfr = 0 ∧
    State.reset.seqIdx = 0 ∧ State.reset.seqPhase = .rid ∧ State.reset.seqOff = 0

/-- Every step keeps the invariant: an instance's width of at least 32 and every register of `W` bits below `2 ^ W`, canonical
memory of `W`-bit addresses, `errcode` and ERROR together, the frame count and index in range, the latched copies those
of a transfer while BUSY, and `seq.off` as spec/10_state.md section 4 says. -/
def Obligations.EveryStepKeepsTheInvariant : Prop :=
  ∀ s t : State, s.Inv → step s = .next t → t.Inv

/-- While a transfer runs with its payload stable, every step but a reset keeps what has been emitted plus what is still
pending, and `crc` in step with the bytes emitted, whatever comes from outside in between: the TX trace of a transfer
does not depend on the interleaving. -/
def Obligations.EmittedPlusPendingIsConstant : Prop :=
  ∀ s t : State, s.Inv → s.crcInStep → s.mode = .busy → s.inbox.head? ≠ some .reset →
    step s = .next t → t.payloadStable →
    t.tx ++ t.pending = s.tx ++ s.pending ∧ t.crcInStep ∧ (t.mode ≠ .busy → t.mode = .done ∧ t.pending = [])

/-- R140: the frames of `encode` are `L + 6 * N` beats, one for each micro-operation. From an accepted CMD.START on, with
the payload unchanged, and whatever else comes from outside but a reset, TX holds a proper beginning of those beats while
BUSY and all of them at the end, which is DONE. With nothing else from outside, the payload backed and the consumer
ready, DONE is reached after exactly `L + 6 * N` micro-operations and not before. Where `encode` fails, CMD.START raises
that error and emits nothing. -/
def Obligations.TransferEmitsTheEncodedFrames : Prop :=
  ∀ s : State, s.mode ≠ .busy →
    (∀ frames,
      encodeFrames (s.pmem.slice 0 s.payloadLen) s.reportId s.chunkCap = .ok frames →
      ∃ u : State, exec .cmdStart s = .next u ∧ u.mode = .busy ∧ u.tx = s.tx ∧
        (frames.map markLast).flatten.length
          = s.payloadLen + 6 * nframes s.payloadLen s.chunkCap ∧
        (s.Inv → Request.reset ∉ s.inbox → ∀ (k : Nat) (v w : State),
          (∀ j ≤ k, ∀ x, runSteps j u = .next x → x.mode = .busy) →
          runSteps k u = .next v → step v = .next w → w.payloadStable →
          (w.mode = .busy → ∃ m < (frames.map markLast).flatten.length,
            w.tx = s.tx ++ (frames.map markLast).flatten.take m) ∧
          (w.mode ≠ .busy → w.mode = .done ∧ w.tx = s.tx ++ (frames.map markLast).flatten)) ∧
        (s.inbox = [] → s.txReady = true → (∀ a < s.payloadLen, s.backed a) →
          (∃ t : State,
            runSteps (s.payloadLen + 6 * nframes s.payloadLen s.chunkCap) u = .next t ∧
            t.mode = .done ∧ t.tx = s.tx ++ (frames.map markLast).flatten) ∧
          ∀ k v, k < s.payloadLen + 6 * nframes s.payloadLen s.chunkCap →
            runSteps k u = .next v → v.mode = .busy)) ∧
    (∀ e,
      encodeFrames (s.pmem.slice 0 s.payloadLen) s.reportId s.chunkCap = .error e →
      ∃ u : State, exec .cmdStart s = .next u ∧ u.mode = .error ∧ u.errcode = .raised e ∧ u.tx = s.tx)

/-- R52: no operation of the block writes memory: every byte reads as before, and of what lies outside the block only
the TX stream and the answers to the host change. -/
def Obligations.NoOperationWritesMemory : Prop :=
  ∀ (i : Instr) (s t : State), exec i s = .next t →
    t.pmem = s.pmem ∧ (∀ a, t.pmem.read a = s.pmem.read a) ∧
    t.unbacked = s.unbacked ∧ t.txReady = s.txReady ∧ t.inbox = s.inbox

/-- A payload byte placed from outside at a backed address is the one read there afterwards, every other address reads as
before, and no register changes (spec/20_memory.md section 1). The two clauses on the memory of races are the model's
choice and inference, notes/assumptions/6.md: a change of the running transfer's payload while BUSY ends its stability,
and placing the byte that is there already is no race. -/
def Obligations.PlacedPayloadBytesReadBack : Prop :=
  ∀ (s : State) (a : Nat) (b : Byte) (rest : List Request),
    s.pmem.wf → s.inbox = .payload a b :: rest → s.backed a →
    ∃ t, step s = .next t ∧
      t = { s with pmem := t.pmem, stale := t.stale, inbox := rest } ∧
      t.pmem.read a = b ∧
      (∀ c, c ≠ a → t.pmem.read c = s.pmem.read c) ∧
      (s.mode = .busy → a < s.plen → s.pmem.read a ≠ b → ¬ t.payloadStable) ∧
      (¬ (s.mode = .busy ∧ a < s.plen ∧ s.pmem.read a ≠ b) → t.stale = s.stale)

/-- The TX stream (spec/20_memory.md section 5): a step only appends to it: one beat, with `last` exactly in the phase CRC,
or in a frame turn (notes/assumptions/9.md) a whole frame with `last` on its final byte alone; and only while BUSY and
with the consumer ready. -/
def Obligations.TxOnlyGrowsByBeatsOfTheSequencer : Prop :=
  ∀ s t : State, step s = .next t →
    t.tx = s.tx ∨
    (s.mode = .busy ∧ s.txReady = true ∧
      (((s.inbox = [] ∨ ∃ rest, s.inbox = .tick :: rest) ∧
          ∃ b, t.tx = s.tx ++ [⟨b, decide (s.seqPhase = .crc)⟩]) ∨
        ((∃ rest, s.inbox = .frameTurn :: rest) ∧
          ∃ bytes : List Byte, 5 ≤ bytes.length ∧
            ∃ c, t.tx = s.tx ++ bytes.map (fun b => ⟨b, false⟩) ++ [⟨c, true⟩])))

/-- The latched copies (spec/10_state.md section 2): they and the frame count change only by an accepted CMD.START and by
reset, and `nfr` also by the exception entry, which zeroes it. -/
def Obligations.LatchedCopiesChangeOnlyAtStartOrReset : Prop :=
  ∀ s t : State, step s = .next t →
    ((t.rid = s.rid ∧ t.cap = s.cap ∧ t.plen = s.plen) ∨ (∃ rest, s.inbox = .reset :: rest) ∨
      ((∃ rest, s.inbox = .host (writeAccess s.W .ctrl 1) :: rest) ∧ s.mode ≠ .busy ∧ t.mode = .busy)) ∧
    (t.nfr = s.nfr ∨ (∃ rest, s.inbox = .reset :: rest) ∨
      ((∃ rest, s.inbox = .host (writeAccess s.W .ctrl 1) :: rest) ∧ s.mode ≠ .busy ∧
        (t.mode = .busy ∨ (t.mode = .error ∧ t.nfr = 0))))

/-- The operand registers (spec/10_state.md section 2): they change only by their own writes and by reset, in every mode, and
what they hold makes no difference to any operation of the sequencer. -/
def Obligations.OperandRegistersDoNotDisturbTheTransfer : Prop :=
  (∀ s t : State, step s = .next t → (∀ rest, s.inbox ≠ .reset :: rest) →
    (t.reportId = s.reportId ∨ ∃ rest, s.inbox = .host (writeAccess s.W .reportId t.reportId) :: rest) ∧
    (t.chunkCap = s.chunkCap ∨ ∃ rest, s.inbox = .host (writeAccess s.W .chunkCap t.chunkCap) :: rest) ∧
    (t.payloadLen = s.payloadLen ∨ ∃ rest, s.inbox = .host (writeAccess s.W .payloadLen t.payloadLen) :: rest)) ∧
  (∀ i ∈ frameOps ++ seqOps, ∀ (s t : State) (x y z : Nat), exec i s = .next t →
    exec i { s with reportId := x, chunkCap := y, payloadLen := z } =
      .next { t with reportId := x, chunkCap := y, payloadLen := z })

/-- Who may change `crc` (spec/40_checksum.md section 2): the sequencer while BUSY, the host by CMD.CRC_CLR and CRC_DATA
otherwise, and reset. Two owners are the model's own: a frame turn, which is the sequencer's coarse step
(notes/assumptions/9.md), and an engine operation asked for directly (notes/assumptions/10.md). -/
def Obligations.ChecksumRegisterHasOneOwner : Prop :=
  ∀ s t : State, step s = .next t → t.crc ≠ s.crc →
    (∃ rest, s.inbox = .reset :: rest) ∨
    (s.mode = .busy ∧
      (s.inbox = [] ∨ (∃ rest, s.inbox = .tick :: rest) ∨ ∃ rest, s.inbox = .frameTurn :: rest)) ∨
    (s.mode ≠ .busy ∧
      ((∃ rest, s.inbox = .host (writeAccess s.W .ctrl 4) :: rest) ∨
        (∃ (v : Nat) (rest : List Request), s.inbox = .host (writeAccess s.W .crcData v) :: rest) ∨
        ∃ p rest, s.inbox = .engine p :: rest))

/-- Every operation and every step answers a next state. That the model never stops is its own reading,
notes/assumptions/19.md: a racing read goes on with a free value (notes/assumptions/6.md), and an operation that is not
enabled leaves the state as it is (notes/assumptions/7.md). -/
def Obligations.EveryStepAnswersANextState : Prop :=
  (∀ (i : Instr) (s : State), ∃ t, exec i s = .next t) ∧ ∀ s : State, ∃ t, step s = .next t

/-- Every host access is answered exactly once, in the order of the inbox, and nothing else is answered
(spec/42_host_interface.md section 1). That accesses come and answers stand in lists of State is the model's choice,
notes/assumptions/2.md and 3.md. -/
def Obligations.EveryAccessIsAnsweredOnceInOrder : Prop :=
  ∀ s t : State, step s = .next t →
    t.inbox = s.inbox.tail ∧
    (∀ a rest, s.inbox = .host a :: rest →
      (a.dir = .read → ∃ v : Nat, t.replies = s.replies ++ [.data v] ∨ t.replies = s.replies ++ [.err]) ∧
      (a.dir = .write → t.replies = s.replies ++ [.ok] ∨ t.replies = s.replies ++ [.err])) ∧
    ((∀ a rest, s.inbox ≠ .host a :: rest) → t.replies = s.replies)

/-- `W`, `PBACKED` and `TX_READY` are the instance's and the environment's (spec/00_scope.md section 4): no step of the block
changes them, but an event from outside may change the last, and changes nothing else. The form of that event is the
model's choice, notes/assumptions/4.md. -/
def Obligations.ReadinessAndBackingAreTheEnvironments : Prop :=
  (∀ s t : State, step s = .next t →
    t.W = s.W ∧ t.unbacked = s.unbacked ∧
      (t.txReady = s.txReady ∨ ∃ rest, s.inbox = .txReady t.txReady :: rest)) ∧
  (∀ (s : State) (r : Bool) (rest : List Request), s.inbox = .txReady r :: rest →
    step s = .next { s with txReady := r, inbox := rest })

/-- R34: the eleven registers at their offsets with their access, and nothing else mapped; reads of 0 after reset; and the
register data path of `W` bits. A read of an operand register or of SEQ_OFF answers all its `W` bits, and every other read
a number of the 32-bit layout, so that bits 32 and up are 0. An operand write stores all its `W` bits; a write to a
read-only register, and a CTRL or CRC_DATA write with any of the bits 32 and up set, is refused. -/
def Obligations.RegisterMapAtEveryWidth : Prop :=
  (Reg.ofOffset 0x00 = some .ctrl ∧ Reg.ofOffset 0x04 = some .status ∧ Reg.ofOffset 0x08 = some .reportId ∧
    Reg.ofOffset 0x0C = some .chunkCap ∧ Reg.ofOffset 0x10 = some .payloadLen ∧ Reg.ofOffset 0x14 = some .frameCount ∧
    Reg.ofOffset 0x18 = some .frameIndex ∧ Reg.ofOffset 0x1C = some .crcData ∧ Reg.ofOffset 0x20 = some .crcValue ∧
    Reg.ofOffset 0x24 = some .seqPhase ∧ Reg.ofOffset 0x28 = some .seqOff) ∧
  (∀ addr, addr % 4 ≠ 0 ∨ 0x2C ≤ addr → Reg.ofOffset addr = none) ∧
  (∀ r : Reg, exec (decodeRead r) State.reset = .next { State.reset with replies := [.data 0] }) ∧
  (∀ s : State, s.Inv → ∀ r : Reg, ∃ v : Nat,
    exec (decodeRead r) s = .next { s with replies := s.replies ++ [.data v] } ∧
    v < 2 ^ s.W ∧
    (r = .ctrl ∨ r = .crcData → v = 0) ∧
    (r = .reportId → v = s.reportId) ∧ (r = .chunkCap → v = s.chunkCap) ∧ (r = .payloadLen → v = s.payloadLen) ∧
    (r = .seqOff → v = s.seqOff) ∧
    (r ≠ .reportId → r ≠ .chunkCap → r ≠ .payloadLen → r ≠ .seqOff → v < 2 ^ 32)) ∧
  (∀ (s : State) (r : Reg) (w : BitVec s.W) (rest : List Request),
    s.inbox = .host ⟨.write, r.offset, s.W, w⟩ :: rest →
    (r = .reportId →
      step s = .next { s with reportId := w.toNat, inbox := rest, replies := s.replies ++ [.ok] }) ∧
    (r = .chunkCap →
      step s = .next { s with chunkCap := w.toNat, inbox := rest, replies := s.replies ++ [.ok] }) ∧
    (r = .payloadLen →
      step s = .next { s with payloadLen := w.toNat, inbox := rest, replies := s.replies ++ [.ok] }) ∧
    (r ∈ [.status, .frameCount, .frameIndex, .crcValue, .seqPhase, .seqOff] ∨
        (r = .ctrl ∨ r = .crcData) ∧ 2 ^ 32 ≤ w.toNat →
      step s = .next { s with inbox := rest, replies := s.replies ++ [.err] }))

/-- What a reset leaves of what is not the block's state: the answers given, the rest of what comes from outside, readiness
and backing are kept, and the memory of races ends. This is the model's choice, notes/assumptions/17.md. -/
def Obligations.ResetKeepsWhatIsOutsideTheBlock : Prop :=
  ∀ (s : State) (rest : List Request), s.inbox = .reset :: rest →
    ∃ t, step s = .next t ∧ t.W = s.W ∧ t.replies = s.replies ∧ t.txReady = s.txReady ∧ t.unbacked = s.unbacked ∧
      t.inbox = rest ∧ t.raceCount = s.raceCount ∧ t.payloadStable

/-- A payload byte placed at an address that the platform does not back is dropped (the model's choice,
notes/assumptions/12.md): the step changes nothing but the inbox. -/
def Obligations.UnbackedPayloadBytesAreDropped : Prop :=
  ∀ (s : State) (a : Nat) (b : Byte) (rest : List Request),
    s.inbox = .payload a b :: rest → ¬ s.backed a → step s = .next { s with inbox := rest }
end

