-- ==== Sys2Proof/Laws/Arith.lean ====
section
/-! SUPPORT. The arithmetic of a transfer (spec/41_encoder.md R120 to R123, R128). -/

namespace Sys2Proof.Machine

open Sys2Proof

theorem one_le_nframes (L C : Nat) : 1 ≤ nframes L C := Nat.le_max_left _ _

/-- The frames hold the payload. -/
theorem le_nframes_mul (L : Nat) {C : Nat} (hC : 1 ≤ C) : L ≤ nframes L C * C := by
  have h1 : (L + C - 1) / C ≤ nframes L C := Nat.le_max_right _ _
  have h2 : L ≤ (L + C - 1) / C * C := by
    have := Nat.div_add_mod (L + C - 1) C
    have := Nat.mod_lt (L + C - 1) (show 0 < C by omega)
    rw [Nat.mul_comm ((L + C - 1) / C) C]
    omega
  exact h2.trans (Nat.mul_le_mul_right C h1)

/-- No frame but that of an empty payload is empty. -/
theorem mul_lt_of_lt_nframes {i L C : Nat} (hC : 1 ≤ C) (hi : i < nframes L C) (h : i ≠ 0 ∨ 1 ≤ L) : i * C < L := by
  unfold nframes at hi
  by_cases hL : L = 0
  · subst hL
    rcases h with h | h
    · have : (0 + C - 1) / C = 0 := Nat.div_eq_of_lt (by omega)
      omega
    · omega
  · have hpos : 1 ≤ (L + C - 1) / C := (Nat.one_le_div_iff (by omega)).mpr (by omega)
    have hi' : i + 1 ≤ (L + C - 1) / C := by omega
    have := (Nat.le_div_iff_mul_le (show 0 < C by omega)).mp hi'
    rw [Nat.add_mul, Nat.one_mul] at this
    omega

/-- The capacity test (R128): the frame count exceeds `n` exactly when the payload exceeds `n` full frames. -/
theorem lt_nframes_iff {n L C : Nat} (hC : 1 ≤ C) (hn : 1 ≤ n) : n < nframes L C ↔ n * C < L := by
  constructor
  · intro h
    exact mul_lt_of_lt_nframes hC h (.inl (by omega))
  · intro h
    by_contra hle
    have h1 := le_nframes_mul L hC
    have h2 := Nat.mul_le_mul_right C (Nat.le_of_not_lt hle)
    omega

/-- Every frame but the last is full. -/
theorem datalen_of_not_last {i L C : Nat} (hC : 1 ≤ C) (hi : i + 1 < nframes L C) : datalen i L C = C := by
  have h := mul_lt_of_lt_nframes hC hi (.inl (by omega))
  rw [Nat.add_mul, Nat.one_mul] at h
  unfold datalen
  omega

/-- The last frame holds what is left. -/
theorem datalen_of_last {i L C : Nat} (hC : 1 ≤ C) (hi : i + 1 = nframes L C) : datalen i L C = L - i * C := by
  have h := le_nframes_mul L hC
  rw [← hi, Nat.add_mul, Nat.one_mul] at h
  unfold datalen
  omega

theorem datalen_le_cap (i L C : Nat) : datalen i L C ≤ C := Nat.min_le_left _ _

/-- Every frame lies in the payload. -/
theorem base_add_datalen_le {i L C : Nat} (hC : 1 ≤ C) (hi : i < nframes L C) : i * C + datalen i L C ≤ L := by
  by_cases h0 : i = 0
  · subst h0; unfold datalen; omega
  · have := mul_lt_of_lt_nframes hC hi (.inl h0)
    unfold datalen; omega

/-- The two bytes of a count that fits 16 bits give it back (R73). -/
theorem lowByte_highByte {r : Nat} (h : r < 65536) : (lowByte r).toNat + 256 * (highByte r).toNat = r := by
  simp only [lowByte, highByte, BitVec.toNat_ofNat]
  omega

theorem length_dataof (i : Nat) (P : List Byte) (C : Nat) : (dataof i P C).length = datalen i P.length C := by
  simp [dataof, datalen]

end Sys2Proof.Machine
end

