-- ==== Sys2Proof/Laws/Encoding.lean ====
section
/-! SUPPORT. The decoder read backwards: which accesses decode to which operation, and that packing a host access as one
number loses nothing (spec/30_encoding.md R82, R88). -/

namespace Sys2Proof

/-- The offset of a mapped register is its own. -/
theorem Reg.ofOffset_eq_some {a : Nat} {r : Reg} (h : Reg.ofOffset a = some r) : a = r.offset := by
  unfold Reg.ofOffset at h
  split at h <;> cases h <;> rfl

/-- A write access that decodes to an operation is that operation's encoding. -/
theorem decodeWrite_eq_ok {W : Nat} {r : Reg} {w : BitVec W} {i : Instr} (h : decodeWrite r w.toNat = .ok i) :
    encode W i = .host ⟨.write, r.offset, W, w⟩ := by
  have hw : BitVec.ofNat W w.toNat = w := by simp
  cases r
  case ctrl =>
    simp only [decodeWrite, decodeCommand] at h
    split at h <;> cases h <;> next hv => rw [hv] at hw; rw [← hw]; rfl
  case crcData =>
    simp only [decodeWrite] at h
    split at h <;> cases h
    conv_rhs => rw [← hw]
    rfl
  all_goals cases h
  all_goals (conv_rhs => rw [← hw]); rfl

/-- An access that decodes to an operation is one whole word, and a read of a mapped register or exactly that operation's
encoding. -/
theorem decodeAccess_eq_ok {W : Nat} {a : Access} {i : Instr} (h : decodeAccess W a = .ok i) :
    a.bits = W ∧ ((∃ r : Reg, a.dir = .read ∧ a.addr = r.offset ∧ i = decodeRead r) ∨ encode W i = .host a) := by
  obtain ⟨d, ad, b, w⟩ := a
  simp only [decodeAccess] at h
  split at h
  · next hb =>
    subst hb
    split at h
    · next r hr =>
      obtain rfl := Reg.ofOffset_eq_some hr
      cases d
      · cases h; exact ⟨rfl, .inl ⟨r, rfl, rfl, rfl⟩⟩
      · exact ⟨rfl, .inr (decodeWrite_eq_ok h)⟩
    · cases h
  · cases h

/-- The decoder answers only operations that have an encoding at its width. -/
theorem wellFormed_of_decode {W : Nat} {w : OpWord} {i : Instr} (h : decode W w = .ok i) : i.wellFormed W = true := by
  cases w with
  | frame f =>
    simp only [decode, decodeFlags] at h
    split at h <;> cases h <;> rfl
  | seq c =>
    simp only [decode, decodePhase] at h
    split at h <;> cases h <;> rfl
  | engine p =>
    simp only [decode, decodeEngine] at h
    split at h <;> cases h <;> rfl
  | host a =>
    obtain ⟨d, ad, b, w⟩ := a
    simp only [decode, decodeAccess] at h
    split at h
    · next hb =>
      subst hb
      split at h
      · next r _ =>
        cases d
        · cases h; cases r <;> rfl
        · simp only at h
          cases r
          case ctrl =>
            simp only [decodeWrite, decodeCommand] at h
            split at h <;> cases h <;> rfl
          case crcData =>
            simp only [decodeWrite] at h
            split at h <;> cases h
            next hv => exact decide_eq_true hv
          all_goals cases h
          all_goals exact decide_eq_true w.isLt
      · cases h
    · cases h

/-- Packing a whole-word access at an offset of six bits as one number loses nothing (R88). -/
theorem Access.unpack_pack {W : Nat} {a : Access} (hb : a.bits = W) (ha : a.addr < 64) :
    Access.unpack W (a.pack W) = a := by
  obtain ⟨d, ad, b, v⟩ := a
  simp only at hb ha
  subst hb
  have hpack : ∀ k, (k * 2 ^ b + v.toNat) / 2 ^ b = k ∧ BitVec.ofNat b (k * 2 ^ b + v.toNat) = v := by
    intro k
    refine ⟨?_, BitVec.eq_of_toNat_eq ?_⟩
    · rw [Nat.mul_comm, Nat.mul_add_div (Nat.two_pow_pos b), Nat.div_eq_of_lt v.isLt, Nat.add_zero]
    · rw [BitVec.toNat_ofNat, Nat.mul_comm, Nat.mul_add_mod, Nat.mod_eq_of_lt v.isLt]
  cases d
  · obtain ⟨h1, h2⟩ := hpack (0 + ad % 64)
    simp only [Access.unpack, Access.pack, h1, h2]
    rw [if_pos (by omega), show (0 + ad % 64) % 64 = ad by omega]
  · obtain ⟨h1, h2⟩ := hpack (64 + ad % 64)
    simp only [Access.unpack, Access.pack, h1, h2]
    rw [if_neg (by omega), show (64 + ad % 64) % 64 = ad by omega]

/-- The packed pattern of a whole-word access has `W + 7` bits (R88). -/
theorem Access.pack_lt {W : Nat} {a : Access} (hb : a.bits = W) : a.pack W < 2 ^ hostBits W := by
  obtain ⟨d, ad, b, v⟩ := a
  simp only at hb
  subst hb
  have hv := v.isLt
  have h (k : Nat) (hk : k + 1 ≤ 128) : k * 2 ^ b + v.toNat < 2 ^ hostBits b := by
    have h := Nat.mul_le_mul_right (2 ^ b) hk
    rw [Nat.add_mul, Nat.one_mul] at h
    have e : 2 ^ hostBits b = 128 * 2 ^ b := by rw [hostBits, Nat.pow_add, Nat.mul_comm]
    omega
  cases d
  · exact h (0 + ad % 64) (by omega)
  · exact h (64 + ad % 64) (by omega)

end Sys2Proof
end

