-- ==== Sys2Proof/Laws/State.lean ====
section
/-! SUPPORT. One lemma per field per update of the state, so that no proof unfolds a record update. -/

namespace Sys2Proof.Machine

open Sys2Proof

@[simp] theorem State.txEmit_W (s : State) (b : Byte) (last : Bool) : (s.txEmit b last).W = s.W := rfl
@[simp] theorem State.txEmit_reportId (s : State) (b : Byte) (last : Bool) : (s.txEmit b last).reportId = s.reportId := rfl
@[simp] theorem State.txEmit_chunkCap (s : State) (b : Byte) (last : Bool) : (s.txEmit b last).chunkCap = s.chunkCap := rfl
@[simp] theorem State.txEmit_payloadLen (s : State) (b : Byte) (last : Bool) : (s.txEmit b last).payloadLen = s.payloadLen := rfl
@[simp] theorem State.txEmit_rid (s : State) (b : Byte) (last : Bool) : (s.txEmit b last).rid = s.rid := rfl
@[simp] theorem State.txEmit_cap (s : State) (b : Byte) (last : Bool) : (s.txEmit b last).cap = s.cap := rfl
@[simp] theorem State.txEmit_plen (s : State) (b : Byte) (last : Bool) : (s.txEmit b last).plen = s.plen := rfl
@[simp] theorem State.txEmit_nfr (s : State) (b : Byte) (last : Bool) : (s.txEmit b last).nfr = s.nfr := rfl
@[simp] theorem State.txEmit_seqIdx (s : State) (b : Byte) (last : Bool) : (s.txEmit b last).seqIdx = s.seqIdx := rfl
@[simp] theorem State.txEmit_seqPhase (s : State) (b : Byte) (last : Bool) : (s.txEmit b last).seqPhase = s.seqPhase := rfl
@[simp] theorem State.txEmit_seqOff (s : State) (b : Byte) (last : Bool) : (s.txEmit b last).seqOff = s.seqOff := rfl
@[simp] theorem State.txEmit_mode (s : State) (b : Byte) (last : Bool) : (s.txEmit b last).mode = s.mode := rfl
@[simp] theorem State.txEmit_errcode (s : State) (b : Byte) (last : Bool) : (s.txEmit b last).errcode = s.errcode := rfl
@[simp] theorem State.txEmit_crc (s : State) (b : Byte) (last : Bool) : (s.txEmit b last).crc = s.crc := rfl
@[simp] theorem State.txEmit_pmem (s : State) (b : Byte) (last : Bool) : (s.txEmit b last).pmem = s.pmem := rfl
@[simp] theorem State.txEmit_unbacked (s : State) (b : Byte) (last : Bool) : (s.txEmit b last).unbacked = s.unbacked := rfl
@[simp] theorem State.txEmit_txReady (s : State) (b : Byte) (last : Bool) : (s.txEmit b last).txReady = s.txReady := rfl
@[simp] theorem State.txEmit_tx (s : State) (b : Byte) (last : Bool) : (s.txEmit b last).tx = s.tx ++ [⟨b, last⟩] := rfl
@[simp] theorem State.txEmit_replies (s : State) (b : Byte) (last : Bool) : (s.txEmit b last).replies = s.replies := rfl
@[simp] theorem State.txEmit_inbox (s : State) (b : Byte) (last : Bool) : (s.txEmit b last).inbox = s.inbox := rfl
@[simp] theorem State.txEmit_stale (s : State) (b : Byte) (last : Bool) : (s.txEmit b last).stale = s.stale := rfl
@[simp] theorem State.txEmit_raceCount (s : State) (b : Byte) (last : Bool) : (s.txEmit b last).raceCount = s.raceCount := rfl

@[simp] theorem State.respond_W (s : State) (r : Reply) : (s.respond r).W = s.W := rfl
@[simp] theorem State.respond_reportId (s : State) (r : Reply) : (s.respond r).reportId = s.reportId := rfl
@[simp] theorem State.respond_chunkCap (s : State) (r : Reply) : (s.respond r).chunkCap = s.chunkCap := rfl
@[simp] theorem State.respond_payloadLen (s : State) (r : Reply) : (s.respond r).payloadLen = s.payloadLen := rfl
@[simp] theorem State.respond_rid (s : State) (r : Reply) : (s.respond r).rid = s.rid := rfl
@[simp] theorem State.respond_cap (s : State) (r : Reply) : (s.respond r).cap = s.cap := rfl
@[simp] theorem State.respond_plen (s : State) (r : Reply) : (s.respond r).plen = s.plen := rfl
@[simp] theorem State.respond_nfr (s : State) (r : Reply) : (s.respond r).nfr = s.nfr := rfl
@[simp] theorem State.respond_seqIdx (s : State) (r : Reply) : (s.respond r).seqIdx = s.seqIdx := rfl
@[simp] theorem State.respond_seqPhase (s : State) (r : Reply) : (s.respond r).seqPhase = s.seqPhase := rfl
@[simp] theorem State.respond_seqOff (s : State) (r : Reply) : (s.respond r).seqOff = s.seqOff := rfl
@[simp] theorem State.respond_mode (s : State) (r : Reply) : (s.respond r).mode = s.mode := rfl
@[simp] theorem State.respond_errcode (s : State) (r : Reply) : (s.respond r).errcode = s.errcode := rfl
@[simp] theorem State.respond_crc (s : State) (r : Reply) : (s.respond r).crc = s.crc := rfl
@[simp] theorem State.respond_pmem (s : State) (r : Reply) : (s.respond r).pmem = s.pmem := rfl
@[simp] theorem State.respond_unbacked (s : State) (r : Reply) : (s.respond r).unbacked = s.unbacked := rfl
@[simp] theorem State.respond_txReady (s : State) (r : Reply) : (s.respond r).txReady = s.txReady := rfl
@[simp] theorem State.respond_tx (s : State) (r : Reply) : (s.respond r).tx = s.tx := rfl
@[simp] theorem State.respond_replies (s : State) (r : Reply) : (s.respond r).replies = s.replies ++ [r] := rfl
@[simp] theorem State.respond_inbox (s : State) (r : Reply) : (s.respond r).inbox = s.inbox := rfl
@[simp] theorem State.respond_stale (s : State) (r : Reply) : (s.respond r).stale = s.stale := rfl
@[simp] theorem State.respond_raceCount (s : State) (r : Reply) : (s.respond r).raceCount = s.raceCount := rfl

@[simp] theorem State.crcClear_W (s : State) : (s.crcClear).W = s.W := rfl
@[simp] theorem State.crcClear_reportId (s : State) : (s.crcClear).reportId = s.reportId := rfl
@[simp] theorem State.crcClear_chunkCap (s : State) : (s.crcClear).chunkCap = s.chunkCap := rfl
@[simp] theorem State.crcClear_payloadLen (s : State) : (s.crcClear).payloadLen = s.payloadLen := rfl
@[simp] theorem State.crcClear_rid (s : State) : (s.crcClear).rid = s.rid := rfl
@[simp] theorem State.crcClear_cap (s : State) : (s.crcClear).cap = s.cap := rfl
@[simp] theorem State.crcClear_plen (s : State) : (s.crcClear).plen = s.plen := rfl
@[simp] theorem State.crcClear_nfr (s : State) : (s.crcClear).nfr = s.nfr := rfl
@[simp] theorem State.crcClear_seqIdx (s : State) : (s.crcClear).seqIdx = s.seqIdx := rfl
@[simp] theorem State.crcClear_seqPhase (s : State) : (s.crcClear).seqPhase = s.seqPhase := rfl
@[simp] theorem State.crcClear_seqOff (s : State) : (s.crcClear).seqOff = s.seqOff := rfl
@[simp] theorem State.crcClear_mode (s : State) : (s.crcClear).mode = s.mode := rfl
@[simp] theorem State.crcClear_errcode (s : State) : (s.crcClear).errcode = s.errcode := rfl
@[simp] theorem State.crcClear_crc (s : State) : (s.crcClear).crc = crcInit := rfl
@[simp] theorem State.crcClear_pmem (s : State) : (s.crcClear).pmem = s.pmem := rfl
@[simp] theorem State.crcClear_unbacked (s : State) : (s.crcClear).unbacked = s.unbacked := rfl
@[simp] theorem State.crcClear_txReady (s : State) : (s.crcClear).txReady = s.txReady := rfl
@[simp] theorem State.crcClear_tx (s : State) : (s.crcClear).tx = s.tx := rfl
@[simp] theorem State.crcClear_replies (s : State) : (s.crcClear).replies = s.replies := rfl
@[simp] theorem State.crcClear_inbox (s : State) : (s.crcClear).inbox = s.inbox := rfl
@[simp] theorem State.crcClear_stale (s : State) : (s.crcClear).stale = s.stale := rfl
@[simp] theorem State.crcClear_raceCount (s : State) : (s.crcClear).raceCount = s.raceCount := rfl

@[simp] theorem State.crcAbsorb_W (s : State) (b : Byte) : (s.crcAbsorb b).W = s.W := rfl
@[simp] theorem State.crcAbsorb_reportId (s : State) (b : Byte) : (s.crcAbsorb b).reportId = s.reportId := rfl
@[simp] theorem State.crcAbsorb_chunkCap (s : State) (b : Byte) : (s.crcAbsorb b).chunkCap = s.chunkCap := rfl
@[simp] theorem State.crcAbsorb_payloadLen (s : State) (b : Byte) : (s.crcAbsorb b).payloadLen = s.payloadLen := rfl
@[simp] theorem State.crcAbsorb_rid (s : State) (b : Byte) : (s.crcAbsorb b).rid = s.rid := rfl
@[simp] theorem State.crcAbsorb_cap (s : State) (b : Byte) : (s.crcAbsorb b).cap = s.cap := rfl
@[simp] theorem State.crcAbsorb_plen (s : State) (b : Byte) : (s.crcAbsorb b).plen = s.plen := rfl
@[simp] theorem State.crcAbsorb_nfr (s : State) (b : Byte) : (s.crcAbsorb b).nfr = s.nfr := rfl
@[simp] theorem State.crcAbsorb_seqIdx (s : State) (b : Byte) : (s.crcAbsorb b).seqIdx = s.seqIdx := rfl
@[simp] theorem State.crcAbsorb_seqPhase (s : State) (b : Byte) : (s.crcAbsorb b).seqPhase = s.seqPhase := rfl
@[simp] theorem State.crcAbsorb_seqOff (s : State) (b : Byte) : (s.crcAbsorb b).seqOff = s.seqOff := rfl
@[simp] theorem State.crcAbsorb_mode (s : State) (b : Byte) : (s.crcAbsorb b).mode = s.mode := rfl
@[simp] theorem State.crcAbsorb_errcode (s : State) (b : Byte) : (s.crcAbsorb b).errcode = s.errcode := rfl
@[simp] theorem State.crcAbsorb_crc (s : State) (b : Byte) : (s.crcAbsorb b).crc = crc8Byte s.crc b := rfl
@[simp] theorem State.crcAbsorb_pmem (s : State) (b : Byte) : (s.crcAbsorb b).pmem = s.pmem := rfl
@[simp] theorem State.crcAbsorb_unbacked (s : State) (b : Byte) : (s.crcAbsorb b).unbacked = s.unbacked := rfl
@[simp] theorem State.crcAbsorb_txReady (s : State) (b : Byte) : (s.crcAbsorb b).txReady = s.txReady := rfl
@[simp] theorem State.crcAbsorb_tx (s : State) (b : Byte) : (s.crcAbsorb b).tx = s.tx := rfl
@[simp] theorem State.crcAbsorb_replies (s : State) (b : Byte) : (s.crcAbsorb b).replies = s.replies := rfl
@[simp] theorem State.crcAbsorb_inbox (s : State) (b : Byte) : (s.crcAbsorb b).inbox = s.inbox := rfl
@[simp] theorem State.crcAbsorb_stale (s : State) (b : Byte) : (s.crcAbsorb b).stale = s.stale := rfl
@[simp] theorem State.crcAbsorb_raceCount (s : State) (b : Byte) : (s.crcAbsorb b).raceCount = s.raceCount := rfl

@[simp] theorem State.emitBody_W (s : State) (b : Byte) : (s.emitBody b).W = s.W := rfl
@[simp] theorem State.emitBody_reportId (s : State) (b : Byte) : (s.emitBody b).reportId = s.reportId := rfl
@[simp] theorem State.emitBody_chunkCap (s : State) (b : Byte) : (s.emitBody b).chunkCap = s.chunkCap := rfl
@[simp] theorem State.emitBody_payloadLen (s : State) (b : Byte) : (s.emitBody b).payloadLen = s.payloadLen := rfl
@[simp] theorem State.emitBody_rid (s : State) (b : Byte) : (s.emitBody b).rid = s.rid := rfl
@[simp] theorem State.emitBody_cap (s : State) (b : Byte) : (s.emitBody b).cap = s.cap := rfl
@[simp] theorem State.emitBody_plen (s : State) (b : Byte) : (s.emitBody b).plen = s.plen := rfl
@[simp] theorem State.emitBody_nfr (s : State) (b : Byte) : (s.emitBody b).nfr = s.nfr := rfl
@[simp] theorem State.emitBody_seqIdx (s : State) (b : Byte) : (s.emitBody b).seqIdx = s.seqIdx := rfl
@[simp] theorem State.emitBody_seqPhase (s : State) (b : Byte) : (s.emitBody b).seqPhase = s.seqPhase := rfl
@[simp] theorem State.emitBody_seqOff (s : State) (b : Byte) : (s.emitBody b).seqOff = s.seqOff := rfl
@[simp] theorem State.emitBody_mode (s : State) (b : Byte) : (s.emitBody b).mode = s.mode := rfl
@[simp] theorem State.emitBody_errcode (s : State) (b : Byte) : (s.emitBody b).errcode = s.errcode := rfl
@[simp] theorem State.emitBody_crc (s : State) (b : Byte) : (s.emitBody b).crc = crc8Byte s.crc b := rfl
@[simp] theorem State.emitBody_pmem (s : State) (b : Byte) : (s.emitBody b).pmem = s.pmem := rfl
@[simp] theorem State.emitBody_unbacked (s : State) (b : Byte) : (s.emitBody b).unbacked = s.unbacked := rfl
@[simp] theorem State.emitBody_txReady (s : State) (b : Byte) : (s.emitBody b).txReady = s.txReady := rfl
@[simp] theorem State.emitBody_tx (s : State) (b : Byte) : (s.emitBody b).tx = s.tx ++ [⟨b, false⟩] := rfl
@[simp] theorem State.emitBody_replies (s : State) (b : Byte) : (s.emitBody b).replies = s.replies := rfl
@[simp] theorem State.emitBody_inbox (s : State) (b : Byte) : (s.emitBody b).inbox = s.inbox := rfl
@[simp] theorem State.emitBody_stale (s : State) (b : Byte) : (s.emitBody b).stale = s.stale := rfl
@[simp] theorem State.emitBody_raceCount (s : State) (b : Byte) : (s.emitBody b).raceCount = s.raceCount := rfl

@[simp] theorem State.goto_W (s : State) (i : BitVec 17) (p : Phase) (o : Nat) : (s.goto i p o).W = s.W := rfl
@[simp] theorem State.goto_reportId (s : State) (i : BitVec 17) (p : Phase) (o : Nat) : (s.goto i p o).reportId = s.reportId := rfl
@[simp] theorem State.goto_chunkCap (s : State) (i : BitVec 17) (p : Phase) (o : Nat) : (s.goto i p o).chunkCap = s.chunkCap := rfl
@[simp] theorem State.goto_payloadLen (s : State) (i : BitVec 17) (p : Phase) (o : Nat) : (s.goto i p o).payloadLen = s.payloadLen := rfl
@[simp] theorem State.goto_rid (s : State) (i : BitVec 17) (p : Phase) (o : Nat) : (s.goto i p o).rid = s.rid := rfl
@[simp] theorem State.goto_cap (s : State) (i : BitVec 17) (p : Phase) (o : Nat) : (s.goto i p o).cap = s.cap := rfl
@[simp] theorem State.goto_plen (s : State) (i : BitVec 17) (p : Phase) (o : Nat) : (s.goto i p o).plen = s.plen := rfl
@[simp] theorem State.goto_nfr (s : State) (i : BitVec 17) (p : Phase) (o : Nat) : (s.goto i p o).nfr = s.nfr := rfl
@[simp] theorem State.goto_seqIdx (s : State) (i : BitVec 17) (p : Phase) (o : Nat) : (s.goto i p o).seqIdx = i := rfl
@[simp] theorem State.goto_seqPhase (s : State) (i : BitVec 17) (p : Phase) (o : Nat) : (s.goto i p o).seqPhase = p := rfl
@[simp] theorem State.goto_seqOff (s : State) (i : BitVec 17) (p : Phase) (o : Nat) : (s.goto i p o).seqOff = o := rfl
@[simp] theorem State.goto_mode (s : State) (i : BitVec 17) (p : Phase) (o : Nat) : (s.goto i p o).mode = s.mode := rfl
@[simp] theorem State.goto_errcode (s : State) (i : BitVec 17) (p : Phase) (o : Nat) : (s.goto i p o).errcode = s.errcode := rfl
@[simp] theorem State.goto_crc (s : State) (i : BitVec 17) (p : Phase) (o : Nat) : (s.goto i p o).crc = s.crc := rfl
@[simp] theorem State.goto_pmem (s : State) (i : BitVec 17) (p : Phase) (o : Nat) : (s.goto i p o).pmem = s.pmem := rfl
@[simp] theorem State.goto_unbacked (s : State) (i : BitVec 17) (p : Phase) (o : Nat) : (s.goto i p o).unbacked = s.unbacked := rfl
@[simp] theorem State.goto_txReady (s : State) (i : BitVec 17) (p : Phase) (o : Nat) : (s.goto i p o).txReady = s.txReady := rfl
@[simp] theorem State.goto_tx (s : State) (i : BitVec 17) (p : Phase) (o : Nat) : (s.goto i p o).tx = s.tx := rfl
@[simp] theorem State.goto_replies (s : State) (i : BitVec 17) (p : Phase) (o : Nat) : (s.goto i p o).replies = s.replies := rfl
@[simp] theorem State.goto_inbox (s : State) (i : BitVec 17) (p : Phase) (o : Nat) : (s.goto i p o).inbox = s.inbox := rfl
@[simp] theorem State.goto_stale (s : State) (i : BitVec 17) (p : Phase) (o : Nat) : (s.goto i p o).stale = s.stale := rfl
@[simp] theorem State.goto_raceCount (s : State) (i : BitVec 17) (p : Phase) (o : Nat) : (s.goto i p o).raceCount = s.raceCount := rfl

@[simp] theorem State.toPhase_W (s : State) (p : Phase) : (s.toPhase p).W = s.W := rfl
@[simp] theorem State.toPhase_reportId (s : State) (p : Phase) : (s.toPhase p).reportId = s.reportId := rfl
@[simp] theorem State.toPhase_chunkCap (s : State) (p : Phase) : (s.toPhase p).chunkCap = s.chunkCap := rfl
@[simp] theorem State.toPhase_payloadLen (s : State) (p : Phase) : (s.toPhase p).payloadLen = s.payloadLen := rfl
@[simp] theorem State.toPhase_rid (s : State) (p : Phase) : (s.toPhase p).rid = s.rid := rfl
@[simp] theorem State.toPhase_cap (s : State) (p : Phase) : (s.toPhase p).cap = s.cap := rfl
@[simp] theorem State.toPhase_plen (s : State) (p : Phase) : (s.toPhase p).plen = s.plen := rfl
@[simp] theorem State.toPhase_nfr (s : State) (p : Phase) : (s.toPhase p).nfr = s.nfr := rfl
@[simp] theorem State.toPhase_seqIdx (s : State) (p : Phase) : (s.toPhase p).seqIdx = s.seqIdx := rfl
@[simp] theorem State.toPhase_seqPhase (s : State) (p : Phase) : (s.toPhase p).seqPhase = p := rfl
@[simp] theorem State.toPhase_seqOff (s : State) (p : Phase) : (s.toPhase p).seqOff = s.seqOff := rfl
@[simp] theorem State.toPhase_mode (s : State) (p : Phase) : (s.toPhase p).mode = s.mode := rfl
@[simp] theorem State.toPhase_errcode (s : State) (p : Phase) : (s.toPhase p).errcode = s.errcode := rfl
@[simp] theorem State.toPhase_crc (s : State) (p : Phase) : (s.toPhase p).crc = s.crc := rfl
@[simp] theorem State.toPhase_pmem (s : State) (p : Phase) : (s.toPhase p).pmem = s.pmem := rfl
@[simp] theorem State.toPhase_unbacked (s : State) (p : Phase) : (s.toPhase p).unbacked = s.unbacked := rfl
@[simp] theorem State.toPhase_txReady (s : State) (p : Phase) : (s.toPhase p).txReady = s.txReady := rfl
@[simp] theorem State.toPhase_tx (s : State) (p : Phase) : (s.toPhase p).tx = s.tx := rfl
@[simp] theorem State.toPhase_replies (s : State) (p : Phase) : (s.toPhase p).replies = s.replies := rfl
@[simp] theorem State.toPhase_inbox (s : State) (p : Phase) : (s.toPhase p).inbox = s.inbox := rfl
@[simp] theorem State.toPhase_stale (s : State) (p : Phase) : (s.toPhase p).stale = s.stale := rfl
@[simp] theorem State.toPhase_raceCount (s : State) (p : Phase) : (s.toPhase p).raceCount = s.raceCount := rfl

@[simp] theorem State.leaveResult_W (s : State) : (s.leaveResult).W = s.W := rfl
@[simp] theorem State.leaveResult_reportId (s : State) : (s.leaveResult).reportId = s.reportId := rfl
@[simp] theorem State.leaveResult_chunkCap (s : State) : (s.leaveResult).chunkCap = s.chunkCap := rfl
@[simp] theorem State.leaveResult_payloadLen (s : State) : (s.leaveResult).payloadLen = s.payloadLen := rfl
@[simp] theorem State.leaveResult_rid (s : State) : (s.leaveResult).rid = s.rid := rfl
@[simp] theorem State.leaveResult_cap (s : State) : (s.leaveResult).cap = s.cap := rfl
@[simp] theorem State.leaveResult_plen (s : State) : (s.leaveResult).plen = s.plen := rfl
@[simp] theorem State.leaveResult_nfr (s : State) : (s.leaveResult).nfr = s.nfr := rfl
@[simp] theorem State.leaveResult_seqIdx (s : State) : (s.leaveResult).seqIdx = s.seqIdx := rfl
@[simp] theorem State.leaveResult_seqPhase (s : State) : (s.leaveResult).seqPhase = s.seqPhase := rfl
@[simp] theorem State.leaveResult_seqOff (s : State) : (s.leaveResult).seqOff = s.seqOff := rfl
@[simp] theorem State.leaveResult_mode (s : State) : (s.leaveResult).mode = .idle := rfl
@[simp] theorem State.leaveResult_errcode (s : State) : (s.leaveResult).errcode = .none := rfl
@[simp] theorem State.leaveResult_crc (s : State) : (s.leaveResult).crc = s.crc := rfl
@[simp] theorem State.leaveResult_pmem (s : State) : (s.leaveResult).pmem = s.pmem := rfl
@[simp] theorem State.leaveResult_unbacked (s : State) : (s.leaveResult).unbacked = s.unbacked := rfl
@[simp] theorem State.leaveResult_txReady (s : State) : (s.leaveResult).txReady = s.txReady := rfl
@[simp] theorem State.leaveResult_tx (s : State) : (s.leaveResult).tx = s.tx := rfl
@[simp] theorem State.leaveResult_replies (s : State) : (s.leaveResult).replies = s.replies := rfl
@[simp] theorem State.leaveResult_inbox (s : State) : (s.leaveResult).inbox = s.inbox := rfl
@[simp] theorem State.leaveResult_stale (s : State) : (s.leaveResult).stale = s.stale := rfl
@[simp] theorem State.leaveResult_raceCount (s : State) : (s.leaveResult).raceCount = s.raceCount := rfl

@[simp] theorem State.takeException_W (s : State) (e : Exc) : (s.takeException e).W = s.W := rfl
@[simp] theorem State.takeException_reportId (s : State) (e : Exc) : (s.takeException e).reportId = s.reportId := rfl
@[simp] theorem State.takeException_chunkCap (s : State) (e : Exc) : (s.takeException e).chunkCap = s.chunkCap := rfl
@[simp] theorem State.takeException_payloadLen (s : State) (e : Exc) : (s.takeException e).payloadLen = s.payloadLen := rfl
@[simp] theorem State.takeException_rid (s : State) (e : Exc) : (s.takeException e).rid = s.rid := rfl
@[simp] theorem State.takeException_cap (s : State) (e : Exc) : (s.takeException e).cap = s.cap := rfl
@[simp] theorem State.takeException_plen (s : State) (e : Exc) : (s.takeException e).plen = s.plen := rfl
@[simp] theorem State.takeException_nfr (s : State) (e : Exc) : (s.takeException e).nfr = 0 := rfl
@[simp] theorem State.takeException_seqIdx (s : State) (e : Exc) : (s.takeException e).seqIdx = 0 := rfl
@[simp] theorem State.takeException_seqPhase (s : State) (e : Exc) : (s.takeException e).seqPhase = .rid := rfl
@[simp] theorem State.takeException_seqOff (s : State) (e : Exc) : (s.takeException e).seqOff = 0 := rfl
@[simp] theorem State.takeException_mode (s : State) (e : Exc) : (s.takeException e).mode = .error := rfl
@[simp] theorem State.takeException_errcode (s : State) (e : Exc) : (s.takeException e).errcode = .raised e := rfl
@[simp] theorem State.takeException_crc (s : State) (e : Exc) : (s.takeException e).crc = s.crc := rfl
@[simp] theorem State.takeException_pmem (s : State) (e : Exc) : (s.takeException e).pmem = s.pmem := rfl
@[simp] theorem State.takeException_unbacked (s : State) (e : Exc) : (s.takeException e).unbacked = s.unbacked := rfl
@[simp] theorem State.takeException_txReady (s : State) (e : Exc) : (s.takeException e).txReady = s.txReady := rfl
@[simp] theorem State.takeException_tx (s : State) (e : Exc) : (s.takeException e).tx = s.tx := rfl
@[simp] theorem State.takeException_replies (s : State) (e : Exc) : (s.takeException e).replies = s.replies := rfl
@[simp] theorem State.takeException_inbox (s : State) (e : Exc) : (s.takeException e).inbox = s.inbox := rfl
@[simp] theorem State.takeException_stale (s : State) (e : Exc) : (s.takeException e).stale = s.stale := rfl
@[simp] theorem State.takeException_raceCount (s : State) (e : Exc) : (s.takeException e).raceCount = s.raceCount := rfl

@[simp] theorem State.beginTransfer_W (s : State) : (s.beginTransfer).W = s.W := rfl
@[simp] theorem State.beginTransfer_reportId (s : State) : (s.beginTransfer).reportId = s.reportId := rfl
@[simp] theorem State.beginTransfer_chunkCap (s : State) : (s.beginTransfer).chunkCap = s.chunkCap := rfl
@[simp] theorem State.beginTransfer_payloadLen (s : State) : (s.beginTransfer).payloadLen = s.payloadLen := rfl
@[simp] theorem State.beginTransfer_rid (s : State) : (s.beginTransfer).rid = BitVec.ofNat 8 s.reportId := rfl
@[simp] theorem State.beginTransfer_cap (s : State) : (s.beginTransfer).cap = s.chunkCap := rfl
@[simp] theorem State.beginTransfer_plen (s : State) : (s.beginTransfer).plen = s.payloadLen := rfl
@[simp] theorem State.beginTransfer_nfr (s : State) : (s.beginTransfer).nfr = BitVec.ofNat 17 (nframes s.payloadLen s.chunkCap) := rfl
@[simp] theorem State.beginTransfer_seqIdx (s : State) : (s.beginTransfer).seqIdx = 0 := rfl
@[simp] theorem State.beginTransfer_seqPhase (s : State) : (s.beginTransfer).seqPhase = .rid := rfl
@[simp] theorem State.beginTransfer_seqOff (s : State) : (s.beginTransfer).seqOff = 0 := rfl
@[simp] theorem State.beginTransfer_mode (s : State) : (s.beginTransfer).mode = .busy := rfl
@[simp] theorem State.beginTransfer_errcode (s : State) : (s.beginTransfer).errcode = s.errcode := rfl
@[simp] theorem State.beginTransfer_crc (s : State) : (s.beginTransfer).crc = s.crc := rfl
@[simp] theorem State.beginTransfer_pmem (s : State) : (s.beginTransfer).pmem = s.pmem := rfl
@[simp] theorem State.beginTransfer_unbacked (s : State) : (s.beginTransfer).unbacked = s.unbacked := rfl
@[simp] theorem State.beginTransfer_txReady (s : State) : (s.beginTransfer).txReady = s.txReady := rfl
@[simp] theorem State.beginTransfer_tx (s : State) : (s.beginTransfer).tx = s.tx := rfl
@[simp] theorem State.beginTransfer_replies (s : State) : (s.beginTransfer).replies = s.replies := rfl
@[simp] theorem State.beginTransfer_inbox (s : State) : (s.beginTransfer).inbox = s.inbox := rfl
@[simp] theorem State.beginTransfer_stale (s : State) : (s.beginTransfer).stale = [] := rfl
@[simp] theorem State.beginTransfer_raceCount (s : State) : (s.beginTransfer).raceCount = s.raceCount := rfl

@[simp] theorem State.resetBlock_W (s : State) : (s.resetBlock).W = s.W := rfl
@[simp] theorem State.resetBlock_reportId (s : State) : (s.resetBlock).reportId = 0 := rfl
@[simp] theorem State.resetBlock_chunkCap (s : State) : (s.resetBlock).chunkCap = 0 := rfl
@[simp] theorem State.resetBlock_payloadLen (s : State) : (s.resetBlock).payloadLen = 0 := rfl
@[simp] theorem State.resetBlock_rid (s : State) : (s.resetBlock).rid = 0 := rfl
@[simp] theorem State.resetBlock_cap (s : State) : (s.resetBlock).cap = 0 := rfl
@[simp] theorem State.resetBlock_plen (s : State) : (s.resetBlock).plen = 0 := rfl
@[simp] theorem State.resetBlock_nfr (s : State) : (s.resetBlock).nfr = 0 := rfl
@[simp] theorem State.resetBlock_seqIdx (s : State) : (s.resetBlock).seqIdx = 0 := rfl
@[simp] theorem State.resetBlock_seqPhase (s : State) : (s.resetBlock).seqPhase = .rid := rfl
@[simp] theorem State.resetBlock_seqOff (s : State) : (s.resetBlock).seqOff = 0 := rfl
@[simp] theorem State.resetBlock_mode (s : State) : (s.resetBlock).mode = .idle := rfl
@[simp] theorem State.resetBlock_errcode (s : State) : (s.resetBlock).errcode = .none := rfl
@[simp] theorem State.resetBlock_crc (s : State) : (s.resetBlock).crc = 0 := rfl
@[simp] theorem State.resetBlock_pmem (s : State) : (s.resetBlock).pmem = s.pmem := rfl
@[simp] theorem State.resetBlock_unbacked (s : State) : (s.resetBlock).unbacked = s.unbacked := rfl
@[simp] theorem State.resetBlock_txReady (s : State) : (s.resetBlock).txReady = s.txReady := rfl
@[simp] theorem State.resetBlock_tx (s : State) : (s.resetBlock).tx = s.tx := rfl
@[simp] theorem State.resetBlock_replies (s : State) : (s.resetBlock).replies = s.replies := rfl
@[simp] theorem State.resetBlock_inbox (s : State) : (s.resetBlock).inbox = s.inbox := rfl
@[simp] theorem State.resetBlock_stale (s : State) : (s.resetBlock).stale = [] := rfl
@[simp] theorem State.resetBlock_raceCount (s : State) : (s.resetBlock).raceCount = s.raceCount := rfl

@[simp] theorem State.dropRequest_W (s : State) : (s.dropRequest).W = s.W := rfl
@[simp] theorem State.dropRequest_reportId (s : State) : (s.dropRequest).reportId = s.reportId := rfl
@[simp] theorem State.dropRequest_chunkCap (s : State) : (s.dropRequest).chunkCap = s.chunkCap := rfl
@[simp] theorem State.dropRequest_payloadLen (s : State) : (s.dropRequest).payloadLen = s.payloadLen := rfl
@[simp] theorem State.dropRequest_rid (s : State) : (s.dropRequest).rid = s.rid := rfl
@[simp] theorem State.dropRequest_cap (s : State) : (s.dropRequest).cap = s.cap := rfl
@[simp] theorem State.dropRequest_plen (s : State) : (s.dropRequest).plen = s.plen := rfl
@[simp] theorem State.dropRequest_nfr (s : State) : (s.dropRequest).nfr = s.nfr := rfl
@[simp] theorem State.dropRequest_seqIdx (s : State) : (s.dropRequest).seqIdx = s.seqIdx := rfl
@[simp] theorem State.dropRequest_seqPhase (s : State) : (s.dropRequest).seqPhase = s.seqPhase := rfl
@[simp] theorem State.dropRequest_seqOff (s : State) : (s.dropRequest).seqOff = s.seqOff := rfl
@[simp] theorem State.dropRequest_mode (s : State) : (s.dropRequest).mode = s.mode := rfl
@[simp] theorem State.dropRequest_errcode (s : State) : (s.dropRequest).errcode = s.errcode := rfl
@[simp] theorem State.dropRequest_crc (s : State) : (s.dropRequest).crc = s.crc := rfl
@[simp] theorem State.dropRequest_pmem (s : State) : (s.dropRequest).pmem = s.pmem := rfl
@[simp] theorem State.dropRequest_unbacked (s : State) : (s.dropRequest).unbacked = s.unbacked := rfl
@[simp] theorem State.dropRequest_txReady (s : State) : (s.dropRequest).txReady = s.txReady := rfl
@[simp] theorem State.dropRequest_tx (s : State) : (s.dropRequest).tx = s.tx := rfl
@[simp] theorem State.dropRequest_replies (s : State) : (s.dropRequest).replies = s.replies := rfl
@[simp] theorem State.dropRequest_inbox (s : State) : (s.dropRequest).inbox = s.inbox.tail := rfl
@[simp] theorem State.dropRequest_stale (s : State) : (s.dropRequest).stale = s.stale := rfl
@[simp] theorem State.dropRequest_raceCount (s : State) : (s.dropRequest).raceCount = s.raceCount := rfl

@[simp] theorem State.endFrame_W (s : State) : (s.endFrame).W = s.W := by
  unfold State.endFrame; split <;> rfl
@[simp] theorem State.endFrame_reportId (s : State) : (s.endFrame).reportId = s.reportId := by
  unfold State.endFrame; split <;> rfl
@[simp] theorem State.endFrame_chunkCap (s : State) : (s.endFrame).chunkCap = s.chunkCap := by
  unfold State.endFrame; split <;> rfl
@[simp] theorem State.endFrame_payloadLen (s : State) : (s.endFrame).payloadLen = s.payloadLen := by
  unfold State.endFrame; split <;> rfl
@[simp] theorem State.endFrame_rid (s : State) : (s.endFrame).rid = s.rid := by
  unfold State.endFrame; split <;> rfl
@[simp] theorem State.endFrame_cap (s : State) : (s.endFrame).cap = s.cap := by
  unfold State.endFrame; split <;> rfl
@[simp] theorem State.endFrame_plen (s : State) : (s.endFrame).plen = s.plen := by
  unfold State.endFrame; split <;> rfl
@[simp] theorem State.endFrame_nfr (s : State) : (s.endFrame).nfr = s.nfr := by
  unfold State.endFrame; split <;> rfl
@[simp] theorem State.endFrame_errcode (s : State) : (s.endFrame).errcode = s.errcode := by
  unfold State.endFrame; split <;> rfl
@[simp] theorem State.endFrame_crc (s : State) : (s.endFrame).crc = s.crc := by
  unfold State.endFrame; split <;> rfl
@[simp] theorem State.endFrame_pmem (s : State) : (s.endFrame).pmem = s.pmem := by
  unfold State.endFrame; split <;> rfl
@[simp] theorem State.endFrame_unbacked (s : State) : (s.endFrame).unbacked = s.unbacked := by
  unfold State.endFrame; split <;> rfl
@[simp] theorem State.endFrame_txReady (s : State) : (s.endFrame).txReady = s.txReady := by
  unfold State.endFrame; split <;> rfl
@[simp] theorem State.endFrame_tx (s : State) : (s.endFrame).tx = s.tx := by
  unfold State.endFrame; split <;> rfl
@[simp] theorem State.endFrame_replies (s : State) : (s.endFrame).replies = s.replies := by
  unfold State.endFrame; split <;> rfl
@[simp] theorem State.endFrame_inbox (s : State) : (s.endFrame).inbox = s.inbox := by
  unfold State.endFrame; split <;> rfl
@[simp] theorem State.endFrame_stale (s : State) : (s.endFrame).stale = s.stale := by
  unfold State.endFrame; split <;> rfl
@[simp] theorem State.endFrame_raceCount (s : State) : (s.endFrame).raceCount = s.raceCount := by
  unfold State.endFrame; split <;> rfl

@[simp] theorem State.afterRead_W (s : State) (a : Nat) : (s.afterRead a).W = s.W := by
  unfold State.afterRead; split <;> rfl
@[simp] theorem State.afterRead_reportId (s : State) (a : Nat) : (s.afterRead a).reportId = s.reportId := by
  unfold State.afterRead; split <;> rfl
@[simp] theorem State.afterRead_chunkCap (s : State) (a : Nat) : (s.afterRead a).chunkCap = s.chunkCap := by
  unfold State.afterRead; split <;> rfl
@[simp] theorem State.afterRead_payloadLen (s : State) (a : Nat) : (s.afterRead a).payloadLen = s.payloadLen := by
  unfold State.afterRead; split <;> rfl
@[simp] theorem State.afterRead_rid (s : State) (a : Nat) : (s.afterRead a).rid = s.rid := by
  unfold State.afterRead; split <;> rfl
@[simp] theorem State.afterRead_cap (s : State) (a : Nat) : (s.afterRead a).cap = s.cap := by
  unfold State.afterRead; split <;> rfl
@[simp] theorem State.afterRead_plen (s : State) (a : Nat) : (s.afterRead a).plen = s.plen := by
  unfold State.afterRead; split <;> rfl
@[simp] theorem State.afterRead_nfr (s : State) (a : Nat) : (s.afterRead a).nfr = s.nfr := by
  unfold State.afterRead; split <;> rfl
@[simp] theorem State.afterRead_seqIdx (s : State) (a : Nat) : (s.afterRead a).seqIdx = s.seqIdx := by
  unfold State.afterRead; split <;> rfl
@[simp] theorem State.afterRead_seqPhase (s : State) (a : Nat) : (s.afterRead a).seqPhase = s.seqPhase := by
  unfold State.afterRead; split <;> rfl
@[simp] theorem State.afterRead_seqOff (s : State) (a : Nat) : (s.afterRead a).seqOff = s.seqOff := by
  unfold State.afterRead; split <;> rfl
@[simp] theorem State.afterRead_mode (s : State) (a : Nat) : (s.afterRead a).mode = s.mode := by
  unfold State.afterRead; split <;> rfl
@[simp] theorem State.afterRead_errcode (s : State) (a : Nat) : (s.afterRead a).errcode = s.errcode := by
  unfold State.afterRead; split <;> rfl
@[simp] theorem State.afterRead_crc (s : State) (a : Nat) : (s.afterRead a).crc = s.crc := by
  unfold State.afterRead; split <;> rfl
@[simp] theorem State.afterRead_pmem (s : State) (a : Nat) : (s.afterRead a).pmem = s.pmem := by
  unfold State.afterRead; split <;> rfl
@[simp] theorem State.afterRead_unbacked (s : State) (a : Nat) : (s.afterRead a).unbacked = s.unbacked := by
  unfold State.afterRead; split <;> rfl
@[simp] theorem State.afterRead_txReady (s : State) (a : Nat) : (s.afterRead a).txReady = s.txReady := by
  unfold State.afterRead; split <;> rfl
@[simp] theorem State.afterRead_tx (s : State) (a : Nat) : (s.afterRead a).tx = s.tx := by
  unfold State.afterRead; split <;> rfl
@[simp] theorem State.afterRead_replies (s : State) (a : Nat) : (s.afterRead a).replies = s.replies := by
  unfold State.afterRead; split <;> rfl
@[simp] theorem State.afterRead_inbox (s : State) (a : Nat) : (s.afterRead a).inbox = s.inbox := by
  unfold State.afterRead; split <;> rfl
@[simp] theorem State.afterRead_stale (s : State) (a : Nat) : (s.afterRead a).stale = s.stale := by
  unfold State.afterRead; split <;> rfl

@[simp] theorem State.placePayload_W (s : State) (a : Nat) (b : Byte) : (s.placePayload a b).W = s.W := by
  unfold State.placePayload; split <;> rfl
@[simp] theorem State.placePayload_reportId (s : State) (a : Nat) (b : Byte) : (s.placePayload a b).reportId = s.reportId := by
  unfold State.placePayload; split <;> rfl
@[simp] theorem State.placePayload_chunkCap (s : State) (a : Nat) (b : Byte) : (s.placePayload a b).chunkCap = s.chunkCap := by
  unfold State.placePayload; split <;> rfl
@[simp] theorem State.placePayload_payloadLen (s : State) (a : Nat) (b : Byte) : (s.placePayload a b).payloadLen = s.payloadLen := by
  unfold State.placePayload; split <;> rfl
@[simp] theorem State.placePayload_rid (s : State) (a : Nat) (b : Byte) : (s.placePayload a b).rid = s.rid := by
  unfold State.placePayload; split <;> rfl
@[simp] theorem State.placePayload_cap (s : State) (a : Nat) (b : Byte) : (s.placePayload a b).cap = s.cap := by
  unfold State.placePayload; split <;> rfl
@[simp] theorem State.placePayload_plen (s : State) (a : Nat) (b : Byte) : (s.placePayload a b).plen = s.plen := by
  unfold State.placePayload; split <;> rfl
@[simp] theorem State.placePayload_nfr (s : State) (a : Nat) (b : Byte) : (s.placePayload a b).nfr = s.nfr := by
  unfold State.placePayload; split <;> rfl
@[simp] theorem State.placePayload_seqIdx (s : State) (a : Nat) (b : Byte) : (s.placePayload a b).seqIdx = s.seqIdx := by
  unfold State.placePayload; split <;> rfl
@[simp] theorem State.placePayload_seqPhase (s : State) (a : Nat) (b : Byte) : (s.placePayload a b).seqPhase = s.seqPhase := by
  unfold State.placePayload; split <;> rfl
@[simp] theorem State.placePayload_seqOff (s : State) (a : Nat) (b : Byte) : (s.placePayload a b).seqOff = s.seqOff := by
  unfold State.placePayload; split <;> rfl
@[simp] theorem State.placePayload_mode (s : State) (a : Nat) (b : Byte) : (s.placePayload a b).mode = s.mode := by
  unfold State.placePayload; split <;> rfl
@[simp] theorem State.placePayload_errcode (s : State) (a : Nat) (b : Byte) : (s.placePayload a b).errcode = s.errcode := by
  unfold State.placePayload; split <;> rfl
@[simp] theorem State.placePayload_crc (s : State) (a : Nat) (b : Byte) : (s.placePayload a b).crc = s.crc := by
  unfold State.placePayload; split <;> rfl
@[simp] theorem State.placePayload_unbacked (s : State) (a : Nat) (b : Byte) : (s.placePayload a b).unbacked = s.unbacked := by
  unfold State.placePayload; split <;> rfl
@[simp] theorem State.placePayload_txReady (s : State) (a : Nat) (b : Byte) : (s.placePayload a b).txReady = s.txReady := by
  unfold State.placePayload; split <;> rfl
@[simp] theorem State.placePayload_tx (s : State) (a : Nat) (b : Byte) : (s.placePayload a b).tx = s.tx := by
  unfold State.placePayload; split <;> rfl
@[simp] theorem State.placePayload_replies (s : State) (a : Nat) (b : Byte) : (s.placePayload a b).replies = s.replies := by
  unfold State.placePayload; split <;> rfl
@[simp] theorem State.placePayload_inbox (s : State) (a : Nat) (b : Byte) : (s.placePayload a b).inbox = s.inbox := by
  unfold State.placePayload; split <;> rfl
@[simp] theorem State.placePayload_raceCount (s : State) (a : Nat) (b : Byte) : (s.placePayload a b).raceCount = s.raceCount := by
  unfold State.placePayload; split <;> rfl

@[simp] theorem State.endFrame_seqPhase (s : State) : s.endFrame.seqPhase = .rid := by
  unfold State.endFrame; split <;> rfl

@[simp] theorem State.endFrame_seqOff (s : State) : s.endFrame.seqOff = 0 := by
  unfold State.endFrame; split <;> rfl

end Sys2Proof.Machine
end

