-- ==== Sys2Proof/Laws/Memory.lean ====
section
/-! SUPPORT. The payload space: read after write, and the canonical form (spec/20_memory.md R50, R51). -/

namespace Sys2Proof.Machine

open Sys2Proof

@[simp] theorem Memory.read_nil (a : Nat) : Memory.read [] a = Config.unlistedPayloadByte := rfl

theorem Memory.read_cons (k : Nat) (v : Byte) (m : Memory) (a : Nat) :
    Memory.read ((k, v) :: m) a = if k = a then v else Memory.read m a := rfl

/-- An address below every listed one reads as unlisted. -/
theorem Memory.read_unlisted {m : Memory} {a : Nat} (h : ∀ c ∈ m, a < c.1) :
    m.read a = Config.unlistedPayloadByte := by
  induction m with
  | nil => rfl
  | cons c m ih =>
    obtain ⟨k, v⟩ := c
    have hk : a < k := h (k, v) (by simp)
    rw [Memory.read_cons, if_neg (by omega), ih fun c hc => h c (by simp [hc])]

/-- A write leaves every other address alone. -/
theorem Memory.read_write_other (m : Memory) {a c : Nat} (b : Byte) (h : c ≠ a) :
    (m.write a b).read c = m.read c := by
  induction m with
  | nil =>
    unfold Memory.write
    split
    · rfl
    · rw [Memory.read_cons, if_neg (Ne.symm h)]
  | cons d m ih =>
    obtain ⟨k, v⟩ := d
    simp only [Memory.write]
    split
    · simp only [Memory.read_cons, ih]
    · split
      · next hk =>
        subst hk
        split <;> simp [Memory.read_cons, Ne.symm h]
      · split <;> simp [Memory.read_cons, Ne.symm h]

/-- A read after a write to the same address gives the value written. -/
theorem Memory.read_write_same {m : Memory} (hm : m.wf) (a : Nat) (b : Byte) : (m.write a b).read a = b := by
  induction m with
  | nil =>
    unfold Memory.write
    split
    · next hb => rw [hb]; rfl
    · simp [Memory.read_cons]
  | cons d m ih =>
    obtain ⟨k, v⟩ := d
    obtain ⟨hs, hv⟩ := hm
    have hlt := (List.pairwise_cons.mp hs).1
    simp only [Memory.write]
    split
    · next hk =>
      rw [Memory.read_cons, if_neg (by omega)]
      exact ih ⟨(List.pairwise_cons.mp hs).2, fun c hc => hv c (by simp [hc])⟩
    · split
      · next hk =>
        subst hk
        split
        · next hb => rw [Memory.read_unlisted (by simpa using hlt), hb]
        · simp [Memory.read_cons]
      · split
        · next hb =>
          rw [Memory.read_unlisted, hb]
          intro c hc
          rcases List.mem_cons.mp hc with rfl | hc
          · simp only; omega
          · have := hlt c hc
            simp only at this; omega
        · simp [Memory.read_cons]

theorem Memory.mem_write {m : Memory} {a : Nat} {b : Byte} {c : Host.Cell} (h : c ∈ m.write a b) :
    c ∈ m ∨ (c = (a, b) ∧ b ≠ Config.unlistedPayloadByte) := by
  induction m with
  | nil =>
    unfold Memory.write at h
    split at h
    · exact absurd h (by simp)
    · next hb => exact .inr ⟨by simpa using h, hb⟩
  | cons d m ih =>
    obtain ⟨k, v⟩ := d
    simp only [Memory.write] at h
    split at h
    · rcases List.mem_cons.mp h with rfl | h
      · exact .inl (by simp)
      · exact (ih h).imp (fun h => by simp [h]) id
    · split at h
      · split at h
        · exact .inl (by simp [h])
        · next hb =>
          rcases List.mem_cons.mp h with h | h
          · exact .inr ⟨h, hb⟩
          · exact .inl (by simp [h])
      · split at h
        · exact .inl h
        · next hb =>
          rcases List.mem_cons.mp h with h | h
          · exact .inr ⟨h, hb⟩
          · exact .inl h

/-- Every write keeps the canonical form. -/
theorem Memory.wf_write {m : Memory} (hm : m.wf) (a : Nat) (b : Byte) : (m.write a b).wf := by
  refine ⟨?_, fun c hc => ?_⟩
  · induction m with
    | nil => unfold Memory.write; split <;> simp
    | cons d m ih =>
      obtain ⟨k, v⟩ := d
      obtain ⟨hs, hv⟩ := hm
      obtain ⟨hlt, hs'⟩ := List.pairwise_cons.mp hs
      simp only [Memory.write]
      split
      · next hk =>
        refine List.pairwise_cons.mpr ⟨fun c hc => ?_, ih ⟨hs', fun c hc => hv c (by simp [hc])⟩⟩
        rcases Memory.mem_write hc with hc | ⟨rfl, -⟩
        · exact hlt c hc
        · exact hk
      · split
        · next hk =>
          subst hk
          split
          · exact hs'
          · exact List.pairwise_cons.mpr ⟨hlt, hs'⟩
        · split
          · exact hs
          · refine List.pairwise_cons.mpr ⟨fun c hc => ?_, hs⟩
            rcases List.mem_cons.mp hc with rfl | hc
            · simp only; omega
            · have := hlt c hc
              simp only at this ⊢; omega
  · rcases Memory.mem_write hc with hc | ⟨rfl, hb⟩
    · exact hm.2 c hc
    · exact hb

@[simp] theorem Memory.length_slice (m : Memory) (a n : Nat) : (m.slice a n).length = n := by
  simp [Memory.slice]

theorem Memory.slice_succ (m : Memory) (a n : Nat) : m.slice a (n + 1) = m.read a :: m.slice (a + 1) n := by
  simp only [Memory.slice, List.range_succ_eq_map, List.map_cons, List.map_map, Nat.add_zero]
  congr 1
  apply List.map_congr_left
  intro k _
  simp only [Function.comp]
  congr 1
  omega

theorem Memory.getElem?_slice (m : Memory) {a n k : Nat} (h : k < n) : (m.slice a n)[k]? = some (m.read (a + k)) := by
  simp [Memory.slice, h]

/-- The payload space of the state after reset is in its canonical form. -/
theorem State.wf_reset : State.reset.pmem.wf := ⟨List.Pairwise.nil, fun _ h => nomatch h⟩

end Sys2Proof.Machine
end

