-- ==== Sys2Proof/Laws/Ops.lean ====
section
/-! SUPPORT. For each shared operation, what it can do, said once: reading the payload space, ending a frame, the beats
of a frame, the checksum of a sequence, and what is due. -/

namespace Sys2Proof.Machine

open Sys2Proof

/-! The checksum functions. -/

@[simp] theorem crc8_nil : crc8 [] = 0x00 := rfl

/-- The defining equation of `crc8` (R102). -/
theorem crc8_append_singleton (bytes : List Byte) (b : Byte) :
    crc8 (bytes ++ [b]) = crc8Byte (crc8 bytes) b := by
  simp [crc8, List.foldl_append]

theorem crc8_append (p q : List Byte) : crc8 (p ++ q) = q.foldl crc8Byte (crc8 p) := by
  simp [crc8, List.foldl_append]

/-! The beats of a frame. -/

/-- `last` is on the final byte and on no other. -/
theorem markLast_append_singleton (bytes : List Byte) (c : Byte) :
    markLast (bytes ++ [c]) = bytes.map (fun b => ⟨b, false⟩) ++ [⟨c, true⟩] := by
  induction bytes with
  | nil => rfl
  | cons b f ih =>
    cases f with
    | nil => rfl
    | cons d f => simpa [markLast] using ih

theorem frameBeats_eq (rid : Byte) (body : List Byte) :
    frameBeats rid body = (rid :: body).map (fun b => (⟨b, false⟩ : Beat)) ++ [⟨crc8 body, true⟩] :=
  markLast_append_singleton (rid :: body) (crc8 body)

@[simp] theorem length_frameBeats (rid : Byte) (body : List Byte) : (frameBeats rid body).length = body.length + 2 := by
  simp [frameBeats_eq]

@[simp] theorem length_headerBytes (f : Byte) (r n : Nat) : (headerBytes f r n).length = 4 := rfl

@[simp] theorem length_bodyBytes (f : Byte) (r : Nat) (d : List Byte) : (bodyBytes f r d).length = d.length + 4 := by
  simp [bodyBytes, Nat.add_comm]

/-! Reading the payload space. -/

/-- An address no host write has raced for reads as the byte it holds. -/
theorem State.payloadByte_of_not_raced {s : State} {a : Nat} (h : ¬ s.raced a) : s.payloadByte a = s.pmem.read a := by
  simp only [State.payloadByte, if_neg h]

theorem State.afterRead_of_not_raced {s : State} {a : Nat} (h : ¬ s.raced a) : s.afterRead a = s := by
  simp only [State.afterRead, if_neg h]

/-- Whatever the free value, the byte read is one that the address has held since `CMD.START`. -/
theorem State.payloadByte_mem_heldBytes (s : State) (a : Nat) : s.payloadByte a ∈ s.heldBytes a := by
  unfold State.payloadByte
  split
  · have hlt : Config.raceChoice s.raceCount % (s.heldBytes a).length < (s.heldBytes a).length :=
      Nat.mod_lt _ (by simp [State.heldBytes])
    rw [List.getD_eq_getElem _ _ hlt]
    exact List.getElem_mem hlt
  · simp [State.heldBytes]

theorem State.not_raced_of_stale_nil {s : State} (h : s.stale = []) (a : Nat) : ¬ s.raced a := by
  simp [State.raced, h]

/-- A run of reads changes nothing but the count of races. -/
theorem State.readRun_state (s : State) (a n : Nat) :
    (s.readRun a n).2 = { s with raceCount := (s.readRun a n).2.raceCount } := by
  induction n generalizing s a with
  | zero => rfl
  | succ n ih =>
    have h := ih (s.afterRead a) (a + 1)
    simp only [State.readRun]
    rw [h]
    unfold State.afterRead
    split <;> rfl

@[simp] theorem State.length_readRun (s : State) (a n : Nat) : (s.readRun a n).1.length = n := by
  induction n generalizing s a with
  | zero => rfl
  | succ n ih => simp [State.readRun, ih]

/-- With the payload stable, a run of reads is the slice of memory, and the state is untouched. -/
theorem State.readRun_of_stale_nil {s : State} (h : s.stale = []) (a n : Nat) :
    s.readRun a n = (s.pmem.slice a n, s) := by
  induction n generalizing a with
  | zero => simp [State.readRun, Memory.slice]
  | succ n ih =>
    have hr := State.not_raced_of_stale_nil h a
    simp [State.readRun, State.afterRead_of_not_raced hr, State.payloadByte_of_not_raced hr, ih,
      Memory.slice_succ]

/-! Ending a frame. -/

theorem State.endFrame_last {s : State} (h : s.seqIdx.toNat + 1 = s.nfr.toNat) :
    s.endFrame = { s with seqIdx := s.nfr, seqPhase := .rid, seqOff := 0, mode := .done } := by
  simp only [State.endFrame, if_pos h]; rfl

theorem State.endFrame_next {s : State} (h : s.seqIdx.toNat + 1 ≠ s.nfr.toNat) :
    s.endFrame = { s with seqIdx := s.seqIdx + 1, seqPhase := .rid, seqOff := 0 } := by
  have e : BitVec.ofNat 17 (s.seqIdx.toNat + 1) = s.seqIdx + 1 := by
    apply BitVec.eq_of_toNat_eq
    simp [BitVec.toNat_add]
  simp only [State.endFrame, if_neg h, e]; rfl

/-! What a host write to the payload space does. -/

theorem State.wf_placePayload {s : State} (h : s.pmem.wf) (a : Nat) (b : Byte) : (s.placePayload a b).pmem.wf := by
  unfold State.placePayload
  split
  · exact Memory.wf_write h a b
  · exact h

theorem State.backed_afterRead (s : State) (a c : Nat) : (s.afterRead a).backed c ↔ s.backed c := by
  simp [State.backed]

/-! What is due. -/

theorem State.dropRequest_of_nil {s : State} (h : s.inbox = []) : s.dropRequest = s := by
  cases s; simp_all [State.dropRequest]

theorem State.dropRequest_of_cons {s : State} {r : Request} {rest : List Request} (h : s.inbox = r :: rest) :
    s.dropRequest = { s with inbox := rest } := by
  simp [State.dropRequest, h]

@[simp] theorem decodePhase_code (p : Phase) :
    decodePhase p.code = .ok (match p with
      | .rid => .emitRid | .flags => .emitFlags | .reml => .emitReml | .remh => .emitRemh
      | .len => .emitLen | .data => .emitData | .crc => .emitCrc) := by
  cases p <;> rfl

@[simp] theorem Phase.ofCode_code (p : Phase) : Phase.ofCode p.code = some p := by
  cases p <;> rfl

end Sys2Proof.Machine
end

