-- ==== Sys2Proof/Laws/PerInstr.lean ====
section
/-! SUPPORT. A statement about every operation as syntax, one lemma per constructor: its encoding is of the format of
its row of the opcode table, and matches the row's pattern (spec/30_encoding.md R88). -/

namespace Sys2Proof.Laws.EncodingMatchesItsRow

open Sys2Proof

/-- At every width of an instance, the encoding of a well-formed operation matches its row. -/
def Statement (i : Instr) : Prop :=
  ∀ W : Nat, 32 ≤ W → i.wellFormed W = true →
    (encode W i).format = (i.row W).format ∧ (i.row W).matchesPattern ((encode W i).pattern W) = true

/-- Bits under a mask that leaves out the low ones do not see the low ones. -/
theorem and_mask (k m n x : Nat) (hx : x < 2 ^ n) : (k * 2 ^ n + x) &&& (m * 2 ^ n) = (k &&& m) * 2 ^ n := by
  have hs : (k * 2 ^ n + x) >>> n = k := by
    rw [Nat.shiftRight_eq_div_pow, Nat.mul_comm, Nat.mul_add_div (Nat.two_pow_pos n), Nat.div_eq_of_lt hx,
      Nat.add_zero]
  apply Nat.eq_of_testBit_eq
  intro j
  simp only [Nat.testBit_and, Nat.testBit_mul_two_pow]
  by_cases hj : n ≤ j
  · have hb : (k * 2 ^ n + x).testBit j = k.testBit (j - n) := by
      conv_rhs => rw [← hs]
      rw [Nat.testBit_shiftRight]
      congr 1
      omega
    simp [hj, hb]
  · simp [hj]

/-- A row matched on `dir` and `addr` alone matches whatever the data. -/
theorem hostRow_matches {W k x : Nat} (name : String) (hk : k &&& 0x7F = k) (hx : x < 2 ^ W) :
    (hostRow W name k).matchesPattern (k * 2 ^ W + x) = true := by
  simp only [Row.matchesPattern, hostRow, and_mask _ _ _ _ hx, hk, beq_self_eq_true]

/-- A command row matches its own pattern. -/
theorem commandRow_matches {W c : Nat} (name : String) (hc : c < 2 ^ W) :
    (commandRow W name c).matchesPattern (0x40 * 2 ^ W + c) = true := by
  have e : 2 ^ hostBits W = 128 * 2 ^ W := by rw [hostBits, Nat.pow_add, Nat.mul_comm]
  simp only [Row.matchesPattern, commandRow, Nat.and_two_pow_sub_one_eq_mod]
  rw [Nat.mod_eq_of_lt (by omega), beq_self_eq_true]

/-- The encoding of an operand-free read, and of every operand write, has the pattern of a host row. -/
theorem read_matches (name : String) (k : Nat) (hk : k &&& 0x7F = k) (W : Nat) :
    (hostRow W name k).matchesPattern (k * 2 ^ W + (0 : BitVec W).toNat) = true :=
  hostRow_matches name hk (0 : BitVec W).isLt

/-- A command's encoding carries its data in `W >= 32` bits unchanged. -/
theorem command_matches (name : String) {c W : Nat} (hW : 32 ≤ W) (hc : c < 2 ^ 32) :
    (commandRow W name c).matchesPattern (0x40 * 2 ^ W + (BitVec.ofNat W c).toNat) = true := by
  have h : c < 2 ^ W := Nat.lt_of_lt_of_le hc (Nat.pow_le_pow_right (by omega) hW)
  rw [BitVec.toNat_ofNat, Nat.mod_eq_of_lt h]
  exact commandRow_matches name h

theorem frameFirst : Statement .frameFirst := fun _ _ _ =>
  ⟨rfl, (by decide : (Instr.row 32 .frameFirst).matchesPattern ((encode 32 .frameFirst).pattern 32) = true)⟩

theorem frameMiddle : Statement .frameMiddle := fun _ _ _ =>
  ⟨rfl, (by decide : (Instr.row 32 .frameMiddle).matchesPattern ((encode 32 .frameMiddle).pattern 32) = true)⟩

theorem frameLast : Statement .frameLast := fun _ _ _ =>
  ⟨rfl, (by decide : (Instr.row 32 .frameLast).matchesPattern ((encode 32 .frameLast).pattern 32) = true)⟩

theorem rdCtrl : Statement .rdCtrl := fun W _ _ => ⟨rfl, read_matches "RD.CTRL" 0x00 rfl W⟩

theorem rdStatus : Statement .rdStatus := fun W _ _ => ⟨rfl, read_matches "RD.STATUS" 0x04 rfl W⟩

theorem rdReportId : Statement .rdReportId := fun W _ _ => ⟨rfl, read_matches "RD.REPORT_ID" 0x08 rfl W⟩

theorem rdChunkCap : Statement .rdChunkCap := fun W _ _ => ⟨rfl, read_matches "RD.CHUNK_CAP" 0x0C rfl W⟩

theorem rdPayloadLen : Statement .rdPayloadLen := fun W _ _ => ⟨rfl, read_matches "RD.PAYLOAD_LEN" 0x10 rfl W⟩

theorem rdFrameCount : Statement .rdFrameCount := fun W _ _ => ⟨rfl, read_matches "RD.FRAME_COUNT" 0x14 rfl W⟩

theorem rdFrameIndex : Statement .rdFrameIndex := fun W _ _ => ⟨rfl, read_matches "RD.FRAME_INDEX" 0x18 rfl W⟩

theorem rdCrcData : Statement .rdCrcData := fun W _ _ => ⟨rfl, read_matches "RD.CRC_DATA" 0x1C rfl W⟩

theorem rdCrcValue : Statement .rdCrcValue := fun W _ _ => ⟨rfl, read_matches "RD.CRC_VALUE" 0x20 rfl W⟩

theorem rdSeqPhase : Statement .rdSeqPhase := fun W _ _ => ⟨rfl, read_matches "RD.SEQ_PHASE" 0x24 rfl W⟩

theorem rdSeqOff : Statement .rdSeqOff := fun W _ _ => ⟨rfl, read_matches "RD.SEQ_OFF" 0x28 rfl W⟩

theorem cmdNop : Statement .cmdNop := fun _ hW _ => ⟨rfl, command_matches "CMD.NOP" hW (by decide)⟩

theorem cmdStart : Statement .cmdStart := fun _ hW _ => ⟨rfl, command_matches "CMD.START" hW (by decide)⟩

theorem cmdClr : Statement .cmdClr := fun _ hW _ => ⟨rfl, command_matches "CMD.CLR" hW (by decide)⟩

theorem cmdCrcClr : Statement .cmdCrcClr := fun _ hW _ => ⟨rfl, command_matches "CMD.CRC_CLR" hW (by decide)⟩

theorem wrReportId (v : Nat) : Statement (.wrReportId v) := fun W _ _ =>
  ⟨rfl, hostRow_matches "WR.REPORT_ID" (by decide : 0x48 &&& 0x7F = 0x48) (BitVec.ofNat W v).isLt⟩

theorem wrChunkCap (v : Nat) : Statement (.wrChunkCap v) := fun W _ _ =>
  ⟨rfl, hostRow_matches "WR.CHUNK_CAP" (by decide : 0x4C &&& 0x7F = 0x4C) (BitVec.ofNat W v).isLt⟩

theorem wrPayloadLen (v : Nat) : Statement (.wrPayloadLen v) := fun W _ _ =>
  ⟨rfl, hostRow_matches "WR.PAYLOAD_LEN" (by decide : 0x50 &&& 0x7F = 0x50) (BitVec.ofNat W v).isLt⟩

theorem wrCrcData (v : Nat) : Statement (.wrCrcData v) := by
  intro W hW h
  have hv : v < 2 ^ 8 := Nat.lt_succ_of_le (of_decide_eq_true h)
  have hvW : v < 2 ^ W := Nat.lt_of_lt_of_le hv (Nat.pow_le_pow_right (by omega) (by omega))
  obtain ⟨n, rfl⟩ : ∃ n, W = n + 8 := ⟨W - 8, by omega⟩
  refine ⟨rfl, ?_⟩
  have e : (encode (n + 8) (.wrCrcData v)).pattern (n + 8) = (0x5C * 2 ^ n) * 2 ^ 8 + v := by
    show 0x5C * 2 ^ (n + 8) + (BitVec.ofNat (n + 8) v).toNat = _
    rw [BitVec.toNat_ofNat, Nat.mod_eq_of_lt hvW, Nat.pow_add, Nat.mul_assoc]
  have em : 2 ^ hostBits (n + 8) - 0x100 = (2 ^ (n + 7) - 1) * 2 ^ 8 := by
    rw [hostBits, show n + 8 + 7 = (n + 7) + 8 by omega, Nat.pow_add 2 (n + 7) 8, Nat.sub_mul, Nat.one_mul]
    rfl
  have ev : 0x5C * 2 ^ (n + 8) = (0x5C * 2 ^ n) * 2 ^ 8 := by rw [Nat.pow_add, Nat.mul_assoc]
  simp only [Row.matchesPattern, e, Instr.row, em, ev, and_mask _ _ _ _ hv, Nat.and_two_pow_sub_one_eq_mod]
  rw [Nat.mod_eq_of_lt, beq_self_eq_true]
  rw [Nat.pow_add, Nat.mul_comm]
  exact Nat.mul_lt_mul_of_pos_left (by decide) (Nat.two_pow_pos n)

theorem emitRid : Statement .emitRid := fun _ _ _ =>
  ⟨rfl, (by decide : (Instr.row 32 .emitRid).matchesPattern ((encode 32 .emitRid).pattern 32) = true)⟩

theorem emitFlags : Statement .emitFlags := fun _ _ _ =>
  ⟨rfl, (by decide : (Instr.row 32 .emitFlags).matchesPattern ((encode 32 .emitFlags).pattern 32) = true)⟩

theorem emitReml : Statement .emitReml := fun _ _ _ =>
  ⟨rfl, (by decide : (Instr.row 32 .emitReml).matchesPattern ((encode 32 .emitReml).pattern 32) = true)⟩

theorem emitRemh : Statement .emitRemh := fun _ _ _ =>
  ⟨rfl, (by decide : (Instr.row 32 .emitRemh).matchesPattern ((encode 32 .emitRemh).pattern 32) = true)⟩

theorem emitLen : Statement .emitLen := fun _ _ _ =>
  ⟨rfl, (by decide : (Instr.row 32 .emitLen).matchesPattern ((encode 32 .emitLen).pattern 32) = true)⟩

theorem emitData : Statement .emitData := fun _ _ _ =>
  ⟨rfl, (by decide : (Instr.row 32 .emitData).matchesPattern ((encode 32 .emitData).pattern 32) = true)⟩

theorem emitCrc : Statement .emitCrc := fun _ _ _ =>
  ⟨rfl, (by decide : (Instr.row 32 .emitCrc).matchesPattern ((encode 32 .emitCrc).pattern 32) = true)⟩

theorem crcClr : Statement .crcClr := fun _ _ _ =>
  ⟨rfl, (by decide : (Instr.row 32 .crcClr).matchesPattern ((encode 32 .crcClr).pattern 32) = true)⟩

theorem crcByte (b : Byte) : Statement (.crcByte b) := by
  intro W _ h
  clear h
  refine ⟨rfl, ?_⟩
  show ((0x100 ||| b.setWidth 9 : BitVec 9).toNat &&& 0x100 == 0x100) = true
  revert b
  decide

end Sys2Proof.Laws.EncodingMatchesItsRow
end

