-- ==== Sys2Proof/Laws/Transfer.lean ====
section
/-! SUPPORT. What the provers of whole runs need again and again: how the invariant passes through a step of the sequencer,
and the frames that a transfer still owes. -/

namespace Sys2Proof.Machine

open Sys2Proof

/-! The invariant. -/

/-- `t` differs from `s` in no field that the invariant looks at, but perhaps in phase and offset. -/
structure State.SameFrame (s t : State) : Prop where
  W          : t.W = s.W
  reportId   : t.reportId = s.reportId
  chunkCap   : t.chunkCap = s.chunkCap
  payloadLen : t.payloadLen = s.payloadLen
  cap        : t.cap = s.cap
  plen       : t.plen = s.plen
  nfr        : t.nfr = s.nfr
  seqIdx     : t.seqIdx = s.seqIdx
  mode       : t.mode = s.mode
  errcode    : t.errcode = s.errcode
  pmem       : t.pmem = s.pmem

theorem State.SameFrame.dueLen {s t : State} (e : State.SameFrame s t) : t.dueLen = s.dueLen := by
  simp [State.dueLen, e.seqIdx, e.plen, e.cap]

/-- The invariant passes to a state of the same frame whose phase and offset meet its last three clauses. -/
theorem State.Inv.moveInFrame {s t : State} (h : s.Inv) (e : State.SameFrame s t)
    (rest : s.mode ≠ .busy → t.seqPhase = .rid)
    (offset : t.seqPhase ≠ .data → t.seqPhase ≠ .crc → t.seqOff = 0)
    (offData : t.seqPhase = .data → t.seqOff < s.dueLen)
    (offCrc : t.seqPhase = .crc → t.seqOff = s.dueLen) : t.Inv := by
  have hlt : t.seqOff < 2 ^ s.W := by
    have hcap := h.ranges.2.2.2.1
    have hdue : s.dueLen ≤ s.cap := datalen_le_cap _ _ _
    by_cases hd : t.seqPhase = .data
    · have := offData hd; omega
    · by_cases hc : t.seqPhase = .crc
      · have := offCrc hc; omega
      · rw [offset hd hc]; exact Nat.two_pow_pos _
  obtain ⟨r1, r2, r3, r4, r5, -⟩ := h.ranges
  constructor
  · rw [e.W]; exact h.width
  · rw [e.W, e.reportId, e.chunkCap, e.payloadLen, e.cap, e.plen]; exact ⟨r1, r2, r3, r4, r5, hlt⟩
  · rw [e.W, e.pmem]; exact h.space
  · rw [e.pmem]; exact h.memory
  · rw [e.errcode, e.mode]; exact h.errcode
  · rw [e.nfr]; exact h.count
  · rw [e.mode, e.seqIdx, e.nfr]
    intro hb
    have hr := rest hb
    exact ⟨(h.rest hb).1, hr, offset (by simp [hr]) (by simp [hr])⟩
  · rw [e.mode, e.cap, e.plen, e.nfr, e.seqIdx]; exact h.run
  · exact offset
  · rw [e.dueLen]; exact offData
  · rw [e.dueLen]; exact offCrc

/-- The invariant looks at no other field. -/
theorem State.Inv.congr {s t : State} (h : s.Inv) (e : State.SameFrame s t) (hp : t.seqPhase = s.seqPhase)
    (ho : t.seqOff = s.seqOff) : t.Inv := by
  refine h.moveInFrame e (fun hb => hp.trans (h.rest hb).2.1) ?_ ?_ ?_ <;> rw [hp, ho]
  · exact h.offset
  · exact h.offData
  · exact h.offCrc

/-- The end of a frame keeps the invariant, whatever phase and offset were before. -/
theorem State.Inv.endFrame {s t : State} (h : s.Inv) (hb : s.mode = .busy) (e : State.SameFrame s t) :
    t.endFrame.Inv := by
  obtain ⟨c1, c2, c3⟩ := h.run hb
  have he : t.errcode = .none := by
    by_contra hne
    have herr := h.errcode.mp (e.errcode ▸ hne)
    rw [hb] at herr
    cases herr
  have hranges : t.reportId < 2 ^ t.W ∧ t.chunkCap < 2 ^ t.W ∧ t.payloadLen < 2 ^ t.W ∧ t.cap < 2 ^ t.W ∧
      t.plen < 2 ^ t.W ∧ 0 < 2 ^ t.W := by
    obtain ⟨r1, r2, r3, r4, r5, -⟩ := h.ranges
    rw [e.W, e.reportId, e.chunkCap, e.payloadLen, e.cap, e.plen]
    exact ⟨r1, r2, r3, r4, r5, Nat.two_pow_pos _⟩
  have hwidth : 32 ≤ t.W := e.W ▸ h.width
  have hspace : ∀ c ∈ t.pmem, c.1 < 2 ^ t.W := by rw [e.W, e.pmem]; exact h.space
  have hmem : t.pmem.wf := e.pmem ▸ h.memory
  have hcount : t.nfr.toNat ≤ Config.nmax := e.nfr ▸ h.count
  by_cases hl : t.seqIdx.toNat + 1 = t.nfr.toNat
  · rw [State.endFrame_last hl]
    exact ⟨hwidth, hranges, hspace, hmem, by simp [he], hcount, by simp, by simp, by simp, by simp, by simp⟩
  · rw [State.endFrame_next hl]
    have hi : (t.seqIdx + 1).toNat = t.seqIdx.toNat + 1 := by
      rw [e.seqIdx] at hl ⊢
      rw [e.nfr] at hl hcount
      simp only [Config.nmax] at hcount
      rw [BitVec.toNat_add]
      show (s.seqIdx.toNat + 1) % 131072 = s.seqIdx.toNat + 1
      omega
    refine ⟨hwidth, hranges, hspace, hmem, by simp [he, e.mode, hb], hcount, by simp [e.mode, hb], fun _ => ?_,
      by simp, by simp, by simp⟩
    show 1 ≤ t.cap ∧ t.nfr.toNat = nframes t.plen t.cap ∧ (t.seqIdx + 1).toNat < t.nfr.toNat
    rw [hi]
    rw [e.seqIdx, e.nfr] at hl ⊢
    rw [e.cap, e.plen]
    exact ⟨c1, c2, by omega⟩

/-! The frames that are still to come. -/

/-- The slice of a payload held in memory. -/
theorem dataof_slice (m : Memory) (i L C : Nat) (h : i * C ≤ L) :
    dataof i (m.slice 0 L) C = m.slice (i * C) (datalen i L C) := by
  apply List.ext_getElem?
  intro k
  by_cases hk : k < datalen i L C
  · have : k < C ∧ k < L - i * C := by unfold datalen at hk; omega
    rw [Memory.getElem?_slice _ hk]
    simp only [dataof]
    rw [List.getElem?_take, if_pos this.1, List.getElem?_drop, Memory.getElem?_slice _ (by omega)]
    simp
  · rw [List.getElem?_eq_none (by simp [dataof]; unfold datalen at hk; omega), List.getElem?_eq_none (by simp; omega)]

/-- The body of the frame being emitted, in terms of what is due. -/
theorem State.body_seqIdx {s : State} (h : s.Inv) (hb : s.mode = .busy) :
    s.body s.seqIdx.toNat =
      [s.dueFlags, lowByte s.dueRemaining, highByte s.dueRemaining, lowByte s.dueLen]
        ++ s.pmem.slice s.dueBase s.dueLen := by
  obtain ⟨h1, h2, h3⟩ := h.run hb
  have hl := base_add_datalen_le h1 (h2 ▸ h3)
  simp only [State.body, bodyOf, State.payload, Memory.length_slice, ← h2]
  rw [dataof_slice _ _ _ _ (by omega)]
  simp [bodyBytes, headerBytes, State.dueFlags, State.dueRemaining, State.dueLen, State.dueBase]

/-- The frames from `i` on are frame `i` and the frames from `i + 1` on. -/
theorem State.framesFrom_succ {s : State} {i : Nat} (h : i < s.nfr.toNat) :
    s.framesFrom i = frameBeats s.rid (s.body i) ++ s.framesFrom (i + 1) := by
  unfold State.framesFrom
  obtain ⟨n, hn⟩ : ∃ n, s.nfr.toNat - i = n + 1 := ⟨s.nfr.toNat - i - 1, by omega⟩
  rw [hn, List.range'_succ, show s.nfr.toNat - (i+1) = n by omega]
  simp

end Sys2Proof.Machine
end

