-- ==== Sys2Proof/Tests/Slice0.lean ====
section
/-! SUPPORT. The model's own tests: ill-formed terms, one word of every row decoded, one step of every operation against
the worked examples of spec/95_test_vectors.md, and, for every statement with hypotheses, a state that meets them. -/

namespace Sys2Proof.Tests

open Sys2Proof Sys2Proof.Machine

/-! ## Well-formedness -/

/-- R82: WR.CRC_DATA has no encoding above 0xFF. -/
theorem test_wellFormed_refuses_wide_crcData : (Instr.wrCrcData 0x100).wellFormed 32 = false := by decide

theorem test_wellFormed_accepts_last_crcData : (Instr.wrCrcData 0xFF).wellFormed 32 = true := by decide

/-- R162 to R164: an operand write carries `W` bits and no more, at the default width and at 64. -/
theorem test_wellFormed_refuses_wide_operands :
    ([.wrReportId (2 ^ 32), .wrChunkCap (2 ^ 32), .wrPayloadLen (2 ^ 32)] : List Instr).map (·.wellFormed 32)
      = [false, false, false] ∧
    ([.wrReportId (2 ^ 32), .wrChunkCap (2 ^ 32), .wrPayloadLen (2 ^ 64)] : List Instr).map (·.wellFormed 64)
      = [true, true, false] := by decide

/-! ## Decoding: words written out from R80, R82, R84 and R88, field by field -/

theorem test_decode_frameFirst : decodeTableWord 8 0b10000000 = some .frameFirst := by decide
theorem test_decode_frameMiddle : decodeTableWord 8 0b01000000 = some .frameMiddle := by decide
theorem test_decode_frameLast : decodeTableWord 8 0b00100000 = some .frameLast := by decide
theorem test_decode_rdCtrl : decodeTableWord 40 0b0_000000_00000000000000000000000000000000 = some .rdCtrl := by decide
theorem test_decode_cmdNop : decodeTableWord 40 0b1_000000_00000000000000000000000000000000 = some .cmdNop := by decide
theorem test_decode_cmdStart : decodeTableWord 40 0b1_000000_00000000000000000000000000000001 = some .cmdStart := by decide
theorem test_decode_cmdClr : decodeTableWord 40 0b1_000000_00000000000000000000000000000010 = some .cmdClr := by decide
theorem test_decode_cmdCrcClr : decodeTableWord 40 0b1_000000_00000000000000000000000000000100 = some .cmdCrcClr := by decide
theorem test_decode_rdStatus : decodeTableWord 40 0b0_000100_00000000000000000000000000000000 = some .rdStatus := by decide
theorem test_decode_rdReportId : decodeTableWord 40 0b0_001000_00000000000000000000000000000000 = some .rdReportId := by decide
theorem test_decode_wrReportId : decodeTableWord 40 0b1_001000_00000000000000000000000100000000 = some (.wrReportId 0x100) := by decide
theorem test_decode_rdChunkCap : decodeTableWord 40 0b0_001100_00000000000000000000000000000000 = some .rdChunkCap := by decide
theorem test_decode_wrChunkCap : decodeTableWord 40 0b1_001100_00000000000000000000000000000010 = some (.wrChunkCap 2) := by decide
theorem test_decode_rdPayloadLen : decodeTableWord 40 0b0_010000_00000000000000000000000000000000 = some .rdPayloadLen := by decide
theorem test_decode_wrPayloadLen : decodeTableWord 40 0b1_010000_00000000000000010001000101110000 = some (.wrPayloadLen 70000) := by decide
theorem test_decode_rdFrameCount : decodeTableWord 40 0b0_010100_00000000000000000000000000000000 = some .rdFrameCount := by decide
theorem test_decode_rdFrameIndex : decodeTableWord 40 0b0_011000_00000000000000000000000000000000 = some .rdFrameIndex := by decide
theorem test_decode_rdCrcData : decodeTableWord 40 0b0_011100_00000000000000000000000000000000 = some .rdCrcData := by decide
theorem test_decode_wrCrcData : decodeTableWord 40 0b1_011100_00000000000000000000000001000001 = some (.wrCrcData 0x41) := by decide
theorem test_decode_rdCrcValue : decodeTableWord 40 0b0_100000_00000000000000000000000000000000 = some .rdCrcValue := by decide
theorem test_decode_rdSeqPhase : decodeTableWord 40 0b0_100100_00000000000000000000000000000000 = some .rdSeqPhase := by decide
theorem test_decode_rdSeqOff : decodeTableWord 40 0b0_101000_11111111111111111111111111111111 = some .rdSeqOff := by decide
theorem test_decode_emitRid : decodeTableWord 8 0b000 = some .emitRid := by decide
theorem test_decode_emitFlags : decodeTableWord 8 0b001 = some .emitFlags := by decide
theorem test_decode_emitReml : decodeTableWord 8 0b010 = some .emitReml := by decide
theorem test_decode_emitRemh : decodeTableWord 8 0b011 = some .emitRemh := by decide
theorem test_decode_emitLen : decodeTableWord 8 0b100 = some .emitLen := by decide
theorem test_decode_emitData : decodeTableWord 8 0b101 = some .emitData := by decide
theorem test_decode_emitCrc : decodeTableWord 8 0b110 = some .emitCrc := by decide
theorem test_decode_crcClr : decodeTableWord 16 0b0_00000000 = some .crcClr := by decide
theorem test_decode_crcByte : decodeTableWord 16 0b1_01000010 = some (.crcByte 0x42) := by decide

/-- R83, X20, X24, X26: reserved commands, data above 0xFF, a read-only register, unmapped and misaligned offsets. -/
theorem test_decode_refuses :
    ([0x4000000003, 0x4000000008, 0x4080000000, 0x5C00000100, 0x4400000000, 0x2C00000000, 0x0200000000].map
      (decodeTableWord 40)) = [none, none, none, none, none, none, none] := by decide

/-- X27: a byte access at 0x08 is no whole word. -/
theorem test_decode_refuses_narrow : decode 32 (.host ⟨.read, 0x08, 8, 0⟩) = .error .notWholeWord := rfl

/-- The rows of spec/opcode_table.json as it prints them, mnemonic, match and mask, for the default width. -/
theorem test_rows_of_the_host :
    hostOps.map (Instr.row 32) = [
      ⟨"RD.CTRL", .host, 0x0000000000, 0x7F00000000⟩, ⟨"CMD.NOP", .host, 0x4000000000, 0x7FFFFFFFFF⟩,
      ⟨"CMD.START", .host, 0x4000000001, 0x7FFFFFFFFF⟩, ⟨"CMD.CLR", .host, 0x4000000002, 0x7FFFFFFFFF⟩,
      ⟨"CMD.CRC_CLR", .host, 0x4000000004, 0x7FFFFFFFFF⟩, ⟨"RD.STATUS", .host, 0x0400000000, 0x7F00000000⟩,
      ⟨"RD.REPORT_ID", .host, 0x0800000000, 0x7F00000000⟩, ⟨"WR.REPORT_ID", .host, 0x4800000000, 0x7F00000000⟩,
      ⟨"RD.CHUNK_CAP", .host, 0x0C00000000, 0x7F00000000⟩, ⟨"WR.CHUNK_CAP", .host, 0x4C00000000, 0x7F00000000⟩,
      ⟨"RD.PAYLOAD_LEN", .host, 0x1000000000, 0x7F00000000⟩, ⟨"WR.PAYLOAD_LEN", .host, 0x5000000000, 0x7F00000000⟩,
      ⟨"RD.FRAME_COUNT", .host, 0x1400000000, 0x7F00000000⟩, ⟨"RD.FRAME_INDEX", .host, 0x1800000000, 0x7F00000000⟩,
      ⟨"RD.CRC_DATA", .host, 0x1C00000000, 0x7F00000000⟩, ⟨"WR.CRC_DATA", .host, 0x5C00000000, 0x7FFFFFFF00⟩,
      ⟨"RD.CRC_VALUE", .host, 0x2000000000, 0x7F00000000⟩, ⟨"RD.SEQ_PHASE", .host, 0x2400000000, 0x7F00000000⟩,
      ⟨"RD.SEQ_OFF", .host, 0x2800000000, 0x7F00000000⟩] := by decide

theorem test_rows_of_the_block :
    (frameOps ++ seqOps ++ engineOps).map (Instr.row 32) = [
      ⟨"FRAME.FIRST", .frame, 0x80, 0xE0⟩, ⟨"FRAME.MIDDLE", .frame, 0x40, 0xE0⟩,
      ⟨"FRAME.LAST", .frame, 0x20, 0xE0⟩, ⟨"EMIT.RID", .seq, 0x0, 0x7⟩, ⟨"EMIT.FLAGS", .seq, 0x1, 0x7⟩,
      ⟨"EMIT.REML", .seq, 0x2, 0x7⟩, ⟨"EMIT.REMH", .seq, 0x3, 0x7⟩, ⟨"EMIT.LEN", .seq, 0x4, 0x7⟩,
      ⟨"EMIT.DATA", .seq, 0x5, 0x7⟩, ⟨"EMIT.CRC", .seq, 0x6, 0x7⟩, ⟨"CRC.CLR", .engine, 0x000, 0x100⟩,
      ⟨"CRC.BYTE", .engine, 0x100, 0x100⟩] := by decide

/-! ## The checksum and the frame functions: K1 to K6, F1, F6, S1 -/

theorem test_crc8_check_string :
    crc8 [0x31, 0x32, 0x33, 0x34, 0x35, 0x36, 0x37, 0x38, 0x39] = 0xF4 := by decide +kernel

theorem test_crc8_collision : crc8 [] = 0x00 ∧ crc8 [0x00] = 0x00 ∧ crc8 [0x01, 0x07] = 0x00 := by decide +kernel

theorem test_encode_empty :
    (encodeFrames [] 3 2).toOption = some [[0x03, 0x20, 0x00, 0x00, 0x00, 0xCE]] := by decide +kernel

theorem test_encode_three_frames :
    (encodeFrames [0x41, 0x42, 0x43, 0x44, 0x45] 3 2).toOption = some
      [[0x03, 0x80, 0x02, 0x00, 0x02, 0x41, 0x42, 0x79], [0x03, 0x40, 0x01, 0x00, 0x02, 0x43, 0x44, 0x7D],
        [0x03, 0x20, 0x00, 0x00, 0x01, 0x45, 0xAD]] := by decide +kernel

/-! ## One step of every operation -/

/-- The outcome is a next state that satisfies `p`. -/
def nextIs (o : Host.Outcome State Fault Refusal) (p : State → Bool) : Bool :=
  match o with
  | .next t => p t
  | .fault _ => false
  | .refused _ => false

/-- The payload `ABCDE` of F6. -/
def abcde : Memory := [(0, 0x41), (1, 0x42), (2, 0x43), (3, 0x44), (4, 0x45)]

/-- A state of the run M1: the transfer of F6 (`rid = 03`, `cap = 2`, `plen = 5`, `nfr = 3`). -/
def m1 (idx : BitVec 17) (phase : Phase) (off : Nat) (crc : Byte) : State :=
  { State.reset with
    reportId := 3, chunkCap := 2, payloadLen := 5, rid := 0x03, cap := 2, plen := 5, nfr := 3
    seqIdx := idx, seqPhase := phase, seqOff := off, mode := .busy, crc := crc, pmem := abcde }

/-- The state after `RD`, `WR` or `CMD` lines have come in. -/
def asked (s : State) (r : Request) : State := { s with inbox := [r] }

/-- M1 step 1. -/
theorem test_step_emitRid : nextIs (step (m1 0 .rid 0 0x5A)) (fun t =>
    t.tx = [⟨0x03, false⟩] && t.crc = 0x00 && t.seqPhase = .flags) = true := by decide

/-- M1 step 2. -/
theorem test_step_emitFlags : nextIs (step (m1 0 .flags 0 0x00)) (fun t =>
    t.tx = [⟨0x80, false⟩] && t.crc = 0x89 && t.seqPhase = .reml) = true := by decide

/-- M1 step 3. -/
theorem test_step_emitReml : nextIs (step (m1 0 .reml 0 0x89)) (fun t =>
    t.tx = [⟨0x02, false⟩] && t.crc = 0xB8 && t.seqPhase = .remh) = true := by decide

/-- M1 step 4. -/
theorem test_step_emitRemh : nextIs (step (m1 0 .remh 0 0xB8)) (fun t =>
    t.tx = [⟨0x00, false⟩] && t.crc = 0x21 && t.seqPhase = .len) = true := by decide

/-- F13 (b), frame 0: `remaining_high` of 65535. -/
theorem test_step_emitRemh_maximum :
    nextIs (step { m1 0 .remh 0 0x00 with nfr := 65536, cap := 1, plen := 65536 }) (fun t =>
    t.tx = [⟨0xFF, false⟩]) = true := by decide

/-- M1 step 5. -/
theorem test_step_emitLen : nextIs (step (m1 0 .len 0 0x21)) (fun t =>
    t.tx = [⟨0x02, false⟩] && t.crc = 0xE9 && t.seqPhase = .data) = true := by decide

/-- F12 (a): 256 data bytes have the length byte 0x00 and go on to the phase DATA. -/
theorem test_step_emitLen_truncates :
    nextIs (step { m1 0 .len 0 0x00 with cap := 256, plen := 300, nfr := 2 }) (fun t =>
    t.tx = [⟨0x00, false⟩] && t.seqPhase = .data) = true := by decide

/-- M1 step 6. -/
theorem test_step_emitData : nextIs (step (m1 0 .data 0 0xE9)) (fun t =>
    t.tx = [⟨0x41, false⟩] && t.crc = 0x51 && t.seqPhase = .data && t.seqOff = 1) = true := by decide

/-- M1 step 22: the last byte of the last frame. -/
theorem test_step_emitData_last : nextIs (step (m1 2 .data 0 0xC9)) (fun t =>
    t.tx = [⟨0x45, false⟩] && t.crc = 0xAD && t.seqPhase = .crc && t.seqOff = 1) = true := by decide

/-- M1 step 8. -/
theorem test_step_emitCrc : nextIs (step (m1 0 .crc 2 0x79)) (fun t =>
    t.tx = [⟨0x79, true⟩] && t.crc = 0x79 && t.seqIdx = 1 && t.seqPhase = .rid && t.seqOff = 0 && t.mode = .busy)
      = true := by decide

/-- M1 step 23. -/
theorem test_step_emitCrc_last : nextIs (step (m1 2 .crc 1 0xAD)) (fun t =>
    t.tx = [⟨0xAD, true⟩] && t.seqIdx = 3 && t.seqPhase = .rid && t.mode = .done) = true := by decide

/-- F6, frame 0, in one frame turn. -/
theorem test_step_frameFirst : nextIs (step (asked (m1 0 .rid 0 0x00) .frameTurn)) (fun t =>
    t.tx = markLast [0x03, 0x80, 0x02, 0x00, 0x02, 0x41, 0x42, 0x79] && t.crc = 0x79 && t.seqIdx = 1) = true := by decide +kernel

/-- F6, frame 1. -/
theorem test_step_frameMiddle : nextIs (step (asked (m1 1 .rid 0 0x79) .frameTurn)) (fun t =>
    t.tx = markLast [0x03, 0x40, 0x01, 0x00, 0x02, 0x43, 0x44, 0x7D] && t.mode = .busy) = true := by decide +kernel

/-- F6, frame 2. -/
theorem test_step_frameLast : nextIs (step (asked (m1 2 .rid 0 0x7D) .frameTurn)) (fun t =>
    t.tx = markLast [0x03, 0x20, 0x00, 0x00, 0x01, 0x45, 0xAD] && t.mode = .done && t.seqIdx = 3) = true := by decide +kernel

/-- R104, R105: the examples of the two rules, asked for directly. -/
theorem test_step_crcClr : nextIs (step (asked { State.reset with crc := 0x6A } (.engine 0x000))) (fun t =>
    t.crc = 0x00) = true := by decide

theorem test_step_crcByte : nextIs (step (asked { State.reset with crc := 0xC0 } (.engine 0x142))) (fun t =>
    t.crc = 0x87) = true := by decide

/-- X3: `3, 1, 65536` is accepted with `nfr = 65536`. -/
theorem test_step_cmdStart_largest :
    nextIs (step (asked { State.reset with reportId := 3, chunkCap := 1, payloadLen := 65536 } (cmdStartLine 32))) (fun t =>
    t.mode = .busy && t.nfr = 65536 && t.rid = 0x03 && t.replies = [.ok] && t.statusWord = 0x01) = true := by decide

/-- X11: `3, 65535, 0xFFFFFFFF` has 65537 frames. -/
theorem test_step_cmdStart_capacity :
    nextIs (step (asked { State.reset with reportId := 3, chunkCap := 65535, payloadLen := 0xFFFFFFFF } (cmdStartLine 32)))
      (fun t => t.mode = .error && t.statusWord = 0x24 && t.nfr = 0 && t.replies = [.ok] && t.tx = []) = true := by decide

/-- H8: leaving ERROR. -/
theorem test_step_cmdClr :
    nextIs (step (asked { State.reset with mode := .error, errcode := .raised .config } (cmdClrLine 32))) (fun t =>
    t.mode = .idle && t.errcode = .none && t.replies = [.ok]) = true := by decide

/-- X22. -/
theorem test_step_cmdClr_busy : nextIs (step (asked (m1 0 .len 0 0x21) (cmdClrLine 32))) (fun t =>
    t = { m1 0 .len 0 0x21 with replies := [.err] }) = true := by decide

/-- H13. -/
theorem test_step_cmdNop : nextIs (step (asked State.reset (cmdNopLine 32))) (fun t =>
    t = { State.reset with replies := [.ok] }) = true := by decide

/-- H7. -/
theorem test_step_cmdCrcClr : nextIs (step (asked { State.reset with crc := 0x87 } (cmdCrcClrLine 32))) (fun t =>
    t.crc = 0x00 && t.replies = [.ok]) = true := by decide

/-- H6. -/
theorem test_step_wrCrcData : nextIs (step (asked { State.reset with crc := 0xC0 } (wr 32 .crcData 0x42))) (fun t =>
    t.crc = 0x87 && t.replies = [.ok]) = true := by decide

/-- X24. -/
theorem test_step_wrCrcData_wide : nextIs (step (asked State.reset (wr 32 .crcData 0x100))) (fun t =>
    t = { State.reset with replies := [.err] }) = true := by decide

/-- H4: stored whole, not truncated. -/
theorem test_step_wrReportId : nextIs (step (asked State.reset (wr 32 .reportId 0x100))) (fun t =>
    t.reportId = 0x100 && t.rid = 0 && t.replies = [.ok]) = true := by decide

/-- H11: accepted while BUSY; the latched copy keeps its value. -/
theorem test_step_wrChunkCap : nextIs (step (asked (m1 0 .len 0 0x21) (wr 32 .chunkCap 9))) (fun t =>
    t.chunkCap = 9 && t.cap = 2 && t.seqPhase = .len && t.replies = [.ok]) = true := by decide

theorem test_step_wrPayloadLen : nextIs (step (asked State.reset (wr 32 .payloadLen 70000))) (fun t =>
    t.payloadLen = 0x11170 && t.plen = 0) = true := by decide

/-- The state after F6, as H9 reads it. -/
def afterF6 : State := { m1 3 .rid 0 0xAD with mode := .done }

/-- A read of `r` in `s` answers `v` and changes nothing else. -/
def reads (s : State) (r : Reg) (v : Nat) : Bool :=
  nextIs (step (asked s (rd 32 r))) (fun t => t = { s with replies := [.data v] })

theorem test_step_rdCtrl : reads (m1 0 .rid 0 0x00) .ctrl 0 = true := by decide
theorem test_step_rdCrcData : reads afterF6 .crcData 0 = true := by decide
theorem test_step_rdStatus : reads afterF6 .status 0x02 = true := by decide
theorem test_step_rdReportId : reads { State.reset with reportId := 0x100 } .reportId 0x100 = true := by decide
theorem test_step_rdChunkCap : reads { m1 0 .rid 0 0x00 with chunkCap := 9 } .chunkCap 9 = true := by decide
theorem test_step_rdPayloadLen : reads afterF6 .payloadLen 5 = true := by decide
theorem test_step_rdFrameCount : reads afterF6 .frameCount 3 = true := by decide
theorem test_step_rdFrameIndex : reads afterF6 .frameIndex 3 = true := by decide
theorem test_step_rdCrcValue : reads afterF6 .crcValue 0xAD = true := by decide
theorem test_step_rdSeqPhase : reads (m1 0 .crc 2 0x79) .seqPhase 6 = true := by decide
theorem test_step_rdSeqOff : reads (m1 0 .data 1 0x51) .seqOff 1 = true := by decide

/-- T2: reset inside a frame leaves the truncated frame on TX and takes every register to 0. -/
theorem test_step_reset :
    nextIs (step (asked { m1 0 .data 1 0x51 with tx := [⟨0x03, false⟩] } .reset)) (fun t =>
    t = { State.reset with tx := [⟨0x03, false⟩], pmem := abcde }) = true := by decide

/-- A word of the table placed on the reset state runs as the next step: one of each format. -/
theorem test_placed_words_run :
    nextIs (step (State.reset.withFetchWord 8 0x40)) (fun t => t.tx.length = 6) = true ∧
    nextIs (step (State.reset.withFetchWord 40 0x4800000003)) (fun t => t.reportId = 3) = true ∧
    nextIs (step (State.reset.withFetchWord 8 0x06)) (fun t => t.tx = [⟨0x00, true⟩]) = true ∧
    nextIs (step (State.reset.withFetchWord 16 0x101)) (fun t => t.crc = 0x07) = true := by decide +kernel

/-- The pseudo-operations of R87 as entries of the inbox (P1, P2). -/
theorem test_pseudo_operations :
    crc8Lines 32 [0x31] = [.host ⟨.write, 0x00, 32, 4⟩, .host ⟨.write, 0x1C, 32, 0x31⟩, .host ⟨.read, 0x20, 32, 0⟩] ∧
    encodeLines 32 3 2 5 = [.host ⟨.write, 0x08, 32, 3⟩, .host ⟨.write, 0x0C, 32, 2⟩, .host ⟨.write, 0x10, 32, 5⟩,
      .host ⟨.write, 0x00, 32, 1⟩] := by decide

/-! ## A register data path of more than 32 bits (R6, R34) -/

/-- An instance with `W = 64`, right after its reset. -/
def wide : State := { State.reset with W := 64 }

/-- The operand registers use all `W` bits, and read them all back. -/
theorem test_wide_operands :
    nextIs (step (asked wide (wr 64 .payloadLen 0x100000000))) (fun t =>
      t.payloadLen = 0x100000000 && t.replies = [.ok]) = true ∧
    nextIs (step (asked { wide with payloadLen := 0x100000000 } (rd 64 .payloadLen))) (fun t =>
      t.replies = [.data 0x100000000]) = true := by decide

/-- Bits 32 and up of CTRL and CRC_DATA, and an access of 32 bits, which is then no whole word. -/
theorem test_wide_refusals :
    ([wr 64 .ctrl 0x100000001, wr 64 .crcData 0x100000041, wr 32 .chunkCap 1, rd 32 .status] : List Request).all
      (fun r => nextIs (step (asked wide r)) fun t => t = { wide with replies := [.err] }) = true := by decide

/-- R7, R182: a payload of 2^33 bytes is accepted at capacity 2^17, with 65536 frames, and raises `E_CAPACITY` at 65536. -/
theorem test_wide_start :
    nextIs (step (asked { wide with reportId := 3, chunkCap := 2 ^ 17, payloadLen := 2 ^ 33 } (cmdStartLine 64)))
      (fun t => t.mode = .busy && t.nfr = 65536 && t.cap = 2 ^ 17 && t.plen = 2 ^ 33) = true ∧
    nextIs (step (asked { wide with reportId := 3, chunkCap := 2 ^ 16, payloadLen := 2 ^ 33 } (cmdStartLine 64)))
      (fun t => t.mode = .error && t.errcode = .raised .capacity) = true := by decide

/-- R51: a payload byte above the 32-bit space is loaded. -/
theorem test_wide_load :
    nextIs (step { m1 1 .data 0 0x00 with W := 64, cap := 2 ^ 32, plen := 2 ^ 33, pmem := [(2 ^ 32, 0x42)] }) (fun t =>
      t.tx = [⟨0x42, false⟩] && t.seqOff = 1) = true := by decide

/-! ## Witnesses: for every statement with hypotheses, states and operands that meet them together -/

/-- An accepted configuration at its boundaries: `rid = 255`, `cap = 1`, `plen = 65536`. -/
def startLargest : State := { State.reset with reportId := 0xFF, chunkCap := 1, payloadLen := 65536 }

/-- X11: one frame more than there may be, at the largest capacity where `W = 32` can ask for that. -/
def startTooMany : State := { startLargest with chunkCap := 65535, payloadLen := 0xFFFFFFFF }

/-- A state in ERROR. -/
def failed (e : Exc) : State := { State.reset with mode := .error, errcode := .raised e }

/-- A DATA state of M1 whose due address the platform does not back. -/
def unbackedData : State := { m1 0 .data 1 0x51 with unbacked := [(1, 1)] }

/-- A DATA state of M1 whose due byte a host write has overwritten. -/
def racedData : State := { m1 0 .data 1 0x51 with stale := [(1, 0x99)] }

theorem witness_DecodeOfEncodeIsTheOperation :
    (32 ≤ 32 ∧ (Instr.wrCrcData 0xFF).wellFormed 32 = true ∧ (Instr.wrReportId 0xFFFFFFFF).wellFormed 32 = true) ∧
    (32 ≤ 64 ∧ (Instr.wrPayloadLen 0xFFFFFFFFFFFFFFFF).wellFormed 64 = true) := by decide

theorem witness_NoTwoRowsMatchOnePattern :
    32 ≤ 32 ∧ (Instr.row 32 .cmdNop).format = (Instr.row 32 .cmdStart).format := by decide

theorem witness_DecoderIsTheOpcodeTable :
    32 ≤ 32 ∧ (∀ a, OpWord.host ⟨.write, 0x3F, 32, 0x100⟩ = .host a → a.bits = 32 ∧ a.addr < 64) ∧
    (∀ a, OpWord.host ⟨.write, 0x1C, 32, 0xFF⟩ = .host a → a.bits = 32 ∧ a.addr < 64) ∧
    (∀ a, OpWord.seq 7 = .host a → a.bits = 32 ∧ a.addr < 64) := by
  refine ⟨by decide, fun a h => ?_, fun a h => ?_, fun a h => nomatch h⟩ <;> cases h <;> decide

theorem witness_StepRunsTheDecodedOperation :
    ((m1 0 .crc 2 0x79).fetch = some (.seq 6) ∧ decode 32 (.seq 6) = .ok .emitCrc) ∧
    ((asked State.reset (wr 32 .status 0)).fetch = some (.host (writeAccess 32 .status 0)) ∧
      decode 32 (.host (writeAccess 32 .status 0)) = .error .readOnlyRegister) ∧
    State.reset.fetch = none := ⟨⟨by decide, rfl⟩, ⟨by decide, rfl⟩, by decide⟩

theorem witness_SequencerTurnRunsThePhase :
    (∀ p ∈ [Phase.rid, .flags, .reml, .remh, .len, .data, .crc],
      (m1 0 p 0 0x00).mode = .busy ∧ (m1 0 p 0 0x00).inbox = [] ∧ (m1 0 p 0 0x00).seqPhase = p) ∧
    (asked (m1 0 .rid 0 0x00) .tick).inbox = .tick :: [] := by decide

theorem witness_RequestsRunTheirOperations :
    32 ≤ State.reset.W ∧ 32 ≤ (m1 0 .rid 0 0x00).W ∧
    (Instr.wrCrcData 0xFF).wellFormed 32 = true ∧ (Instr.crcByte 0xFF).wellFormed 32 = true ∧
    encode 32 (.wrCrcData 0xFF) = .host (writeAccess 32 .crcData 0xFF) ∧
    (asked (m1 0 .rid 0 0x00) (wr 32 .crcData 0xFF)).inbox = .host (writeAccess 32 .crcData 0xFF) :: [] ∧
    encode 32 (.crcByte 0xFF) = .engine 0x1FF ∧
    (asked State.reset (.engine 0x1FF)).inbox = .engine 0x1FF :: [] ∧
    (asked (m1 0 .rid 0 0x00) (.engine 0x1FF)).inbox = .engine 0x1FF :: [] := by decide

theorem witness_ChecksumStepsAreBijections : (0x00 : Byte) ≠ 0x01 ∧ 7 < 8 := by decide

theorem witness_HostChecksumProgramAnswersTheChecksum :
    32 ≤ afterF6.W ∧
    { afterF6 with inbox := crc8Lines 32 [0x31, 0x32] }.mode ≠ .busy ∧
    { afterF6 with inbox := crc8Lines 32 [0x31, 0x32] }.inbox = crc8Lines 32 [0x31, 0x32] ++ [] ∧
    { afterF6 with inbox := crc8Lines 32 [] }.inbox = crc8Lines 32 [] ++ [] := by decide

theorem witness_FrameCountIsTheCeiling : 1 ≤ 1 ∧ 1 ≤ 65537 ∧ Config.nmax < nframes 65537 1 ∧ Config.nmax * 1 < 65537 := by
  decide

/-- An index in range, the first of two frames, the last frame of one byte, and the empty payload. -/
theorem witness_DataLengthsPartitionThePayload :
    1 ≤ 2 ∧ 2 < nframes 5 2 ∧ 0 + 1 < nframes 3 2 ∧ datalen (nframes 3 2 - 1) 3 2 = 1 ∧
    datalen (nframes 0 1 - 1) 0 1 = 0 := by decide

theorem witness_SlicesReassembleThePayload : 1 ≤ 1 ∧ (dataof 2 [0x41, 0x42, 0x43, 0x44, 0x45] 2).length = 1 := by decide

theorem witness_FrameLayout :
    1 ≤ 1 ∧ ([0x41, 0x42] : List Byte).length ≤ Config.nmax * 1 ∧
    1 < nframes ([0x41, 0x42] : List Byte).length 1 ∧ 0 < datalen 1 ([0x41, 0x42] : List Byte).length 1 ∧
    0 < nframes ([] : List Byte).length 1 := by decide

/-- The three kinds in a transfer of three frames, and the only frame of a transfer of one. -/
theorem witness_FlagsMarkThePositions :
    1 ≤ 1 ∧ 0 < 1 ∧ flagsof 0 1 = 0x20 ∧ flagsof 0 3 = 0x80 ∧ flagsof 1 3 = 0x40 ∧ flagsof 2 3 = 0x20 := by decide

/-- A frame that is not the last, the last one, and a length byte that is not the count. -/
theorem witness_RemainingAndLengthFidelity :
    1 ≤ 2 ∧ 0 + 1 < nframes ([0x41, 0x42, 0x43] : List Byte).length 2 ∧ nframes ([] : List Byte).length 1 = 1 ∧
    ¬ datalen 0 300 256 ≤ 255 := by decide

theorem witness_EncoderNeverEmitsTheImpossible :
    (encodeFrames [0x41, 0x42, 0x43] 0xFF 1).toOption.map (fun frames => frames.map List.length) = some [7, 7, 7] ∧
    (encodeFrames [] 0x00 1).toOption.map (fun frames => frames.map List.length) = some [6] := by decide +kernel

theorem inv_reset : State.reset.Inv :=
  ⟨by decide, by decide, by decide, by decide, by decide, by decide, by decide, by decide, by decide, by decide, by decide⟩

theorem inv_data : (m1 0 .data 1 0x51).Inv :=
  ⟨by decide, by decide, by decide, by decide, by decide, by decide, by decide, by decide, by decide, by decide, by decide⟩

theorem inv_lastData : (m1 2 .data 0 0xC9).Inv :=
  ⟨by decide, by decide, by decide, by decide, by decide, by decide, by decide, by decide, by decide, by decide, by decide⟩

theorem inv_crc : (m1 2 .crc 1 0xAD).Inv :=
  ⟨by decide, by decide, by decide, by decide, by decide, by decide, by decide, by decide, by decide, by decide, by decide⟩

theorem inv_afterF6 : afterF6.Inv :=
  ⟨by decide, by decide, by decide, by decide, by decide, by decide, by decide, by decide, by decide, by decide, by decide⟩

theorem inv_failed_config : (failed .config).Inv :=
  ⟨by decide, by decide, by decide, by decide, by decide, by decide, by decide, by decide, by decide, by decide, by decide⟩

theorem inv_failed_capacity : (failed .capacity).Inv :=
  ⟨by decide, by decide, by decide, by decide, by decide, by decide, by decide, by decide, by decide, by decide, by decide⟩

/-- The five values. -/
theorem witness_StatusReadsOneOfFiveValues :
    (State.reset.Inv ∧ State.reset.statusWord = 0x00) ∧
    ((m1 2 .crc 1 0xAD).Inv ∧ (m1 2 .crc 1 0xAD).statusWord = 0x01) ∧
    (afterF6.Inv ∧ afterF6.statusWord = 0x02) ∧
    ((failed .config).Inv ∧ (failed .config).statusWord = 0x14) ∧
    ((failed .capacity).Inv ∧ (failed .capacity).statusWord = 0x24) :=
  ⟨⟨inv_reset, by decide⟩, ⟨inv_crc, by decide⟩, ⟨inv_afterF6, by decide⟩, ⟨inv_failed_config, by decide⟩,
    ⟨inv_failed_capacity, by decide⟩⟩

theorem witness_OperandWritesStoreWholeWords :
    (State.reset.mode ≠ .busy ∧ 0xFF < (0x100 : Nat) ∧ (0 : Nat) = 0) ∧
    (startLargest.mode ≠ .busy ∧ 1 ≤ startLargest.chunkCap ∧ startLargest.reportId ≤ 0xFF ∧
      65536 < nframes (65537 : Nat) startLargest.chunkCap) := by decide

theorem witness_CommandsActOrAreRefused : afterF6.mode ≠ .busy ∧ (m1 0 .rid 0 0x00).mode = .busy := by decide

theorem witness_ChecksumDataIsAbsorbedOrRefused :
    (afterF6.mode ≠ .busy ∧ (0xFF : Nat) ≤ 0xFF) ∧ 0xFF < (0x100 : Nat) ∧
    (m1 0 .rid 0 0x00).mode = .busy := by decide

/-- The lowest access with no cause, and each of the seven causes at the edge of its range. -/
theorem witness_AccessesAreRefusedForSevenCauses :
    (asked State.reset (.host ⟨.read, 0x28, 32, 0⟩)).inbox = .host ⟨.read, 0x28, 32, 0⟩ :: [] ∧
    nextIs (step (asked State.reset (.host ⟨.read, 0x28, 32, 0⟩))) (fun t => t.replies = [.data 0]) = true ∧
    nextIs (step (asked State.reset (.host ⟨.write, 0x00, 32, 4⟩))) (fun t => t.replies = [.ok]) = true ∧
    ([(State.reset, ⟨.read, 0x2C, 32, 0⟩), (State.reset, ⟨.read, 0x01, 32, 0⟩), (State.reset, ⟨.read, 0x08, 16, 0⟩),
        (State.reset, ⟨.write, 0x28, 32, 0⟩), (State.reset, ⟨.write, 0x00, 32, 3⟩),
        (m1 0 .rid 0 0x00, ⟨.write, 0x00, 32, 1⟩), (m1 0 .rid 0 0x00, ⟨.write, 0x1C, 32, 0⟩),
        (State.reset, ⟨.write, 0x1C, 32, 0x100⟩)] : List (State × Access)).all
      (fun c => nextIs (step (asked c.1 (.host c.2))) fun t => t.replies = [.err]) = true := by decide

theorem witness_StartLatchesTheTransfer :
    startLargest.mode ≠ .busy ∧ 1 ≤ startLargest.chunkCap ∧ startLargest.reportId ≤ 0xFF ∧
    startLargest.payloadLen ≤ Config.nmax * startLargest.chunkCap := by decide

theorem witness_StartTakesTheExceptions :
    (startTooMany.W = 32 ∧ startTooMany.payloadLen < 2 ^ startTooMany.W) ∧
    (m1 0 .rid 0 0x00).mode = .busy ∧
    (State.reset.mode ≠ .busy ∧ State.reset.chunkCap = 0) ∧
    0xFF < { startLargest with reportId := 0x100 }.reportId ∧
    (startLargest.mode ≠ .busy ∧ 1 ≤ startLargest.chunkCap ∧ startLargest.reportId ≤ 0xFF ∧
      nframes startLargest.payloadLen startLargest.chunkCap ≤ 65536 ∧
      65536 * startLargest.chunkCap < { startLargest with payloadLen := 65537 }.payloadLen) ∧
    65536 * startTooMany.chunkCap < startTooMany.payloadLen := by decide

/-- The three ways a CMD.START ends. -/
theorem witness_StartEndsInOneOfThreeWays :
    nextIs (exec .cmdStart startLargest) (fun t => t.mode = .busy) = true ∧
    nextIs (exec .cmdStart State.reset) (fun t => t.mode = .error) = true ∧
    nextIs (exec .cmdStart (m1 0 .rid 0 0x00)) (fun t => t.replies = [.err]) = true := by decide

theorem witness_OnlyStartRaisesExceptions :
    nextIs (exec .cmdStart State.reset) (fun t => t.errcode = .raised .config) = true ∧
    nextIs (exec .cmdNop (failed .capacity)) (fun t => t.errcode = .raised .capacity) = true := by decide

/-- One change of mode of each listed kind. -/
theorem witness_ModeChangesOnlyAsListed :
    nextIs (step (asked afterF6 .reset)) (fun t => t.mode = .idle) = true ∧
    nextIs (step (asked startLargest (cmdStartLine 32))) (fun t => t.mode = .busy) = true ∧
    nextIs (step (asked afterF6 (cmdClrLine 32))) (fun t => t.mode = .idle) = true ∧
    nextIs (step (m1 2 .crc 1 0xAD)) (fun t => t.mode = .done) = true := by decide

theorem witness_HeaderMicroOperations :
    ∀ p ∈ [Phase.rid, .flags, .reml, .remh],
      (m1 2 p 0 0x00).mode = .busy ∧ (m1 2 p 0 0x00).txReady = true ∧ (m1 2 p 0 0x00).seqPhase = p := by decide

theorem witness_LengthMicroOperation :
    (m1 2 .len 0 0x00).mode = .busy ∧ (m1 2 .len 0 0x00).txReady = true ∧ (m1 2 .len 0 0x00).seqPhase = .len := by decide

/-- The last byte of the payload. -/
theorem witness_DataMicroOperation :
    (m1 2 .data 0 0xC9).mode = .busy ∧ (m1 2 .data 0 0xC9).txReady = true ∧ (m1 2 .data 0 0xC9).seqPhase = .data ∧
    (m1 2 .data 0 0xC9).backed (2 * 2 + 0) ∧ ∀ c ∈ (m1 2 .data 0 0xC9).stale, c.1 ≠ 2 * 2 + 0 := by decide

theorem witness_RacingDataMicroOperation :
    racedData.mode = .busy ∧ racedData.txReady = true ∧ racedData.seqPhase = .data ∧ racedData.backed (0 * 2 + 1) ∧
    ∃ c ∈ racedData.stale, c.1 = 0 * 2 + 1 := by decide

theorem witness_ChecksumMicroOperation :
    ((m1 2 .crc 1 0xAD).mode = .busy ∧ (m1 2 .crc 1 0xAD).txReady = true ∧ (m1 2 .crc 1 0xAD).seqPhase = .crc ∧
      (m1 2 .crc 1 0xAD).seqIdx.toNat + 1 = (m1 2 .crc 1 0xAD).nfr.toNat) ∧
    ((m1 1 .crc 2 0x7D).mode = .busy ∧ (m1 1 .crc 2 0x7D).txReady = true ∧ (m1 1 .crc 2 0x7D).seqPhase = .crc ∧
      (m1 1 .crc 2 0x7D).seqIdx.toNat + 1 ≠ (m1 1 .crc 2 0x7D).nfr.toNat) := by decide

/-- Not BUSY disables all seven, and so do a consumer that is not ready and, for DATA, an unbacked address. -/
theorem witness_MicroOperationsWaitUntilEnabled :
    State.reset.mode ≠ .busy ∧ { m1 0 .crc 2 0x79 with txReady := false }.txReady ≠ true ∧
    (m1 0 .crc 2 0x79).seqPhase ≠ .rid ∧ ¬ unbackedData.backed (0 * 2 + 1) := by decide

theorem witness_UnbackedAddressSticksUntilReset :
    unbackedData.mode = .busy ∧ unbackedData.seqPhase = .data ∧ ¬ unbackedData.backed (0 * 2 + 1) ∧
    Request.reset ∉ { unbackedData with inbox := [wr 32 .chunkCap 1, .tick] }.inbox ∧
    (asked unbackedData .reset).inbox = .reset :: [] := by decide

/-- The load of a byte that is not its frame's last, of one that is, and of the last one of all. -/
theorem witness_LoadAddressesAscendWithinThePayload :
    ((m1 0 .data 1 0x51).Inv ∧ (m1 2 .data 0 0xC9).Inv) ∧
    (m1 0 .data 1 0x51).backed 1 ∧ (m1 2 .data 0 0xC9).backed 4 ∧
    nextIs (exec .emitData (m1 0 .data 0 0xE9)) (fun t => t.seqPhase = .data) = true ∧
    nextIs (exec .emitData (m1 0 .data 1 0x51)) (fun t => t.seqPhase = .crc && t.seqIdx = 0) = true ∧
    nextIs (exec .emitData (m1 2 .data 0 0xC9)) (fun t => t.seqPhase = .crc && t.seqIdx = 2) = true :=
  ⟨⟨inv_data, inv_lastData⟩, by decide, by decide, by decide, by decide, by decide⟩

/-- The place of frame `n` of F6, with the premises of the two statements about a frame operation of the kind `k`. -/
def frameDue (n : BitVec 17) (k : Byte) : Bool :=
  let s := m1 n .rid 0 0x00
  decide (s.mode = .busy) && decide (s.seqPhase = .rid) && s.txReady && decide (s.stale = []) &&
    decide (s.inbox = []) && decide (flagsof s.seqIdx.toNat s.nfr.toNat = k) &&
    decide (s.backedFrom (s.seqIdx.toNat * s.cap) (datalen s.seqIdx.toNat s.plen s.cap))

/-- A frame of each kind, also for `FrameOperationIsTheRunOfItsMicroOperations`. -/
theorem witness_FrameOperationEmitsItsFrame :
    frameDue 0 0x80 = true ∧ frameDue 1 0x40 = true ∧ frameDue 2 0x20 = true := by decide

theorem witness_FrameOperationIsTheRunOfItsMicroOperations :
    { m1 0 .rid 0 0x00 with stale := [(1, 0x99)] }.mode = .busy ∧
    { m1 0 .rid 0 0x00 with stale := [(1, 0x99)] }.inbox = [] ∧
    { m1 0 .rid 0 0x00 with stale := [(1, 0x99)] }.backedFrom 0 2 := by decide

theorem witness_FrameOperationsWaitUntilEnabled :
    flagsof (m1 1 .rid 0 0x00).seqIdx.toNat (m1 1 .rid 0 0x00).nfr.toNat ≠ 0x80 ∧ State.reset.mode ≠ .busy := by decide

theorem witness_ResetSetsEveryRegister :
    (asked (m1 0 .data 1 0x51) .reset).inbox = .reset :: [] ∧ State.reset.mode ≠ .busy ∧
    nextIs (step (asked startLargest (cmdStartLine 32))) (fun t => t.mode = .busy) = true := by decide

theorem witness_EveryStepKeepsTheInvariant :
    (m1 2 .crc 1 0xAD).Inv ∧ nextIs (step (m1 2 .crc 1 0xAD)) (fun t => t.mode = .done) = true :=
  ⟨inv_crc, by decide⟩

/-- M1 before its first beat and before its last one. -/
theorem witness_EmittedPlusPendingIsConstant :
    ((m1 2 .crc 1 0xAD).Inv ∧ (m1 2 .crc 1 0xAD).crcInStep ∧ (m1 2 .crc 1 0xAD).mode = .busy ∧
      (m1 2 .crc 1 0xAD).inbox.head? ≠ some .reset) ∧
    nextIs (step (m1 2 .crc 1 0xAD)) (fun t => t.stale = []) = true :=
  ⟨⟨inv_crc, fun _ _ => by decide +kernel, by decide, by decide⟩, by decide⟩

theorem witness_TransferEmitsTheEncodedFrames :
    (∀ s ∈ [startLargest, { startLargest with payloadLen := 2, pmem := abcde }, State.reset],
      s.mode ≠ .busy ∧ s.inbox = [] ∧ s.txReady = true) ∧
    (∀ a < 2, { startLargest with payloadLen := 2 }.backed a) ∧
    (encodeFrames ({ startLargest with pmem := abcde }.pmem.slice 0 2) 0xFF 1).toOption.map
      (fun frames => frames.map List.length) = some [7, 7] ∧
    encodeFrames (State.reset.pmem.slice 0 0) 0 0 = .error .config :=
  ⟨by decide, by decide, by decide +kernel, rfl⟩

/-- The interleaved part of the same statement: a host write falls between two beats, a step in the middle of the transfer
leaves it BUSY, and the step at its last beat ends it. -/
theorem witness_TransferEmitsTheEncodedFrames_interleaved :
    { startLargest with payloadLen := 0, inbox := [.tick, wr 32 .chunkCap 9, .tick] }.Inv ∧
    Request.reset ∉ [.tick, wr 32 .chunkCap 9, .tick] ∧
    nextIs (exec .cmdStart { startLargest with payloadLen := 0, inbox := [.tick, wr 32 .chunkCap 9, .tick] }) (fun u =>
      nextIs (runSteps 3 u) (fun v => v.mode = .busy && v.tx.length = 2 &&
        nextIs (step v) (fun w => w.mode = .busy && w.stale = [] && w.tx.length = 3)) &&
      nextIs (runSteps 6 u) (fun v => v.mode = .busy && nextIs (step v) (fun w => w.mode = .done && w.stale = []))) = true :=
  ⟨⟨by decide, by decide, by decide, by decide, by decide, by decide, by decide, by decide, by decide, by decide, by decide⟩, by decide,
    by decide +kernel⟩

theorem witness_NoOperationWritesMemory :
    nextIs (exec .emitData (m1 0 .data 1 0x51)) (fun t => t.pmem = abcde) = true := by decide

/-- A change of the last payload byte while BUSY, and a byte beyond the payload. -/
theorem witness_PlacedPayloadBytesReadBack :
    (asked (m1 0 .rid 0 0x00) (.payload 4 0x46)).pmem.wf ∧ (m1 0 .rid 0 0x00).backed (4 : Nat) ∧
    ((m1 0 .rid 0 0x00).mode = .busy ∧ (4 : Nat) < (m1 0 .rid 0 0x00).plen ∧
      (m1 0 .rid 0 0x00).pmem.read (4 : Nat) ≠ 0x46) ∧
    ¬ ((5 : Nat) < (m1 0 .rid 0 0x00).plen) ∧ (m1 0 .rid 0 0x00).backed (0xFFFFFFFF : Nat) := by
  decide

/-- A step that emits nothing, one that emits a beat, and one that emits a frame. -/
theorem witness_TxOnlyGrowsByBeatsOfTheSequencer :
    nextIs (step State.reset) (fun t => t.tx = []) = true ∧
    nextIs (step (m1 0 .crc 2 0x79)) (fun t => t.tx = [⟨0x79, true⟩]) = true ∧
    nextIs (step (asked (m1 2 .rid 0 0x00) .frameTurn)) (fun t => t.tx.length = 7) = true := by decide +kernel

theorem witness_LatchedCopiesChangeOnlyAtStartOrReset :
    nextIs (step (asked startLargest (cmdStartLine 32))) (fun t => t.cap = 1 && t.plen = 65536) = true ∧
    nextIs (step (asked afterF6 .reset)) (fun t => t.cap = 0) = true ∧
    nextIs (step (asked { afterF6 with chunkCap := 0 } (cmdStartLine 32))) (fun t => t.nfr = 0 && t.cap = 2) = true := by
  decide

theorem witness_OperandRegistersDoNotDisturbTheTransfer :
    nextIs (step (asked (m1 0 .rid 0 0x00) (wr 32 .payloadLen 9))) (fun t => t.payloadLen = 9 && t.plen = 5) = true ∧
    Instr.emitCrc ∈ frameOps ++ seqOps ∧ nextIs (exec .emitCrc (m1 0 .crc 2 0x79)) (fun _ => true) = true := by decide

/-- Each owner changes `crc`. -/
theorem witness_ChecksumRegisterHasOneOwner :
    nextIs (step (asked afterF6 .reset)) (fun t => t.crc ≠ afterF6.crc) = true ∧
    nextIs (step (m1 0 .flags 0 0x00)) (fun t => t.crc ≠ 0x00) = true ∧
    nextIs (step (asked afterF6 (cmdCrcClrLine 32))) (fun t => t.crc ≠ afterF6.crc) = true ∧
    nextIs (step (asked afterF6 (.engine 0x000))) (fun t => t.crc ≠ afterF6.crc) = true := by decide

theorem witness_EveryAccessIsAnsweredOnceInOrder :
    nextIs (step { State.reset with inbox := [rd 32 .status, cmdNopLine 32] }) (fun t =>
      t.replies = [.data 0] && t.inbox = [cmdNopLine 32]) = true ∧
    nextIs (step (asked State.reset .tick)) (fun t => t.replies = []) = true := by decide

theorem witness_ReadinessAndBackingAreTheEnvironments :
    (asked State.reset (.txReady false)).inbox = .txReady false :: [] ∧
    nextIs (step (asked State.reset (.txReady false))) (fun t => !t.txReady) = true := by decide

theorem inv_wide : { wide with reportId := 2 ^ 32, payloadLen := 2 ^ 64 - 1 }.Inv :=
  ⟨by decide, by decide, by decide, by decide, by decide, by decide, by decide, by decide, by decide, by decide, by decide⟩

/-- Offsets at the edge of the map, a wide state that meets the invariant, and each kind of write at a width of 64. -/
theorem witness_RegisterMapAtEveryWidth :
    (0x2C : Nat) ≤ 0x2C ∧ (0x29 : Nat) % 4 ≠ 0 ∧
    { wide with reportId := 2 ^ 32, payloadLen := 2 ^ 64 - 1 }.Inv ∧
    ([.reportId, .chunkCap, .payloadLen, .status, .seqOff, .ctrl, .crcData] : List Reg).all (fun r =>
      decide ((asked wide (wr 64 r (2 ^ 32))).inbox = [.host ⟨.write, r.offset, 64, 0x100000000⟩])) = true ∧
    2 ^ 32 ≤ (0x100000000 : BitVec 64).toNat :=
  ⟨by decide, by decide, inv_wide, by decide, by decide⟩

theorem witness_ResetKeepsWhatIsOutsideTheBlock :
    (asked { racedData with replies := [.ok], txReady := false } .reset).inbox = .reset :: [] := by decide

theorem witness_UnbackedPayloadBytesAreDropped :
    (asked unbackedData (.payload 1 0x46)).inbox = .payload 1 0x46 :: [] ∧ ¬ unbackedData.backed 1 ∧
    (asked State.reset (.payload (2 ^ 32) 0x46)).inbox = .payload (2 ^ 32) 0x46 :: [] ∧
    ¬ State.reset.backed (2 ^ 32) := by decide

end Sys2Proof.Tests
end

section
/-! The host's path into the block: what a register reads as, how the decoder meets a whole-word access to a mapped
register, and the step that a host access takes (spec/10_state.md R34, spec/30_encoding.md R82, R83). With them the
register map at every width is settled. -/

namespace Sys2Proof

/-! The register map and whole-word accesses, as the decoder meets them. -/

@[simp] theorem Reg.ofOffset_offset (r : Reg) : Reg.ofOffset r.offset = some r := by
  cases r <;> rfl

/-- Every mapped offset is a multiple of 4 below 0x2C. -/
theorem Reg.offset_in_map (r : Reg) : r.offset % 4 = 0 ∧ r.offset < 0x2C := by
  cases r <;> decide

theorem Reg.ofOffset_eq_none {addr : Nat} (h : addr % 4 ≠ 0 ∨ 0x2C ≤ addr) : Reg.ofOffset addr = none := by
  rw [Option.eq_none_iff_forall_ne_some]
  intro r hr
  have hmap := r.offset_in_map
  rw [← Reg.ofOffset_eq_some hr] at hmap
  omega

@[simp] theorem decodeAccess_read (W : Nat) (r : Reg) (w : BitVec W) :
    decodeAccess W ⟨.read, r.offset, W, w⟩ = .ok (decodeRead r) := by
  simp [decodeAccess]

@[simp] theorem decodeAccess_write (W : Nat) (r : Reg) (w : BitVec W) :
    decodeAccess W ⟨.write, r.offset, W, w⟩ = decodeWrite r w.toNat := by
  simp [decodeAccess]

theorem decodeWrite_readOnly {r : Reg} (v : Nat)
    (h : r ∈ [Reg.status, .frameCount, .frameIndex, .crcValue, .seqPhase, .seqOff]) :
    decodeWrite r v = .error .readOnlyRegister := by
  cases r
  case ctrl | reportId | chunkCap | payloadLen | crcData => simp at h
  all_goals rfl

/-- No command of R35 has a bit above bit 2. -/
theorem decodeCommand_of_four_lt {v : Nat} (h : 4 < v) : decodeCommand v = .error .reservedCommand := by
  obtain ⟨n, rfl⟩ := Nat.exists_eq_add_of_le' h
  rfl

theorem decodeWrite_crcData_of_lt {v : Nat} (h : 0xFF < v) :
    decodeWrite .crcData v = .error .crcDataTooLarge :=
  if_neg (Nat.not_le.mpr h)

/-- A write that finds no operation: to a read-only register, or with one of the bits 32 and up set to a register that
looks at its data. -/
theorem decodeWrite_refused {r : Reg} {v : Nat}
    (h : r ∈ [Reg.status, .frameCount, .frameIndex, .crcValue, .seqPhase, .seqOff] ∨
      (r = .ctrl ∨ r = .crcData) ∧ 2 ^ 32 ≤ v) :
    ∃ e, decodeWrite r v = .error e := by
  obtain hro | ⟨rfl | rfl, hv⟩ := h
  · exact ⟨_, decodeWrite_readOnly v hro⟩
  · exact ⟨_, decodeCommand_of_four_lt (by omega)⟩
  · exact ⟨_, decodeWrite_crcData_of_lt (by omega)⟩

end Sys2Proof

namespace Sys2Proof.Machine

open Sys2Proof

/-! The step of a host access. -/

theorem State.fetch_of_host {s : State} {a : Access} {rest : List Request} (h : s.inbox = .host a :: rest) :
    s.fetch = some (.host a) := by
  simp [State.fetch, h]

theorem step_of_decodeAccess_ok {s : State} {a : Access} {rest : List Request} {i : Instr}
    (h : s.inbox = .host a :: rest) (hd : decodeAccess s.W a = .ok i) :
    step s = exec i { s with inbox := rest } := by
  simp [step, State.fetch_of_host h, decode, hd, State.dropRequest_of_cons h]

theorem step_of_decodeAccess_error {s : State} {a : Access} {rest : List Request} {e : Reject}
    (h : s.inbox = .host a :: rest) (hd : decodeAccess s.W a = .error e) :
    step s = .next { s with inbox := rest, replies := s.replies ++ [.err] } := by
  simp [step, State.fetch_of_host h, decode, hd, State.dropRequest_of_cons h, State.rejectWord, State.respond]

/-! What a register reads as. -/

/-- The number that a read of each register answers (R165, R172 to R177). -/
def State.readValue (s : State) : Reg → Nat
  | .ctrl | .crcData => 0
  | .status => s.statusWord.toNat
  | .reportId => s.reportId
  | .chunkCap => s.chunkCap
  | .payloadLen => s.payloadLen
  | .frameCount => s.nfr.toNat
  | .frameIndex => s.seqIdx.toNat
  | .crcValue => s.crc.toNat
  | .seqPhase => s.seqPhase.code.toNat
  | .seqOff => s.seqOff

/-- A read answers its register's number and changes nothing else, in every state (R55). -/
theorem exec_decodeRead (r : Reg) (s : State) :
    exec (decodeRead r) s = .next { s with replies := s.replies ++ [.data (s.readValue r)] } := by
  cases r <;> rfl

theorem State.readValue_reset (r : Reg) : State.reset.readValue r = 0 := by
  cases r <;> rfl

/-- A register of a fixed layout reads as a number of 32 bits, whatever the state. -/
theorem State.readValue_lt_of_fixed_layout (s : State) {r : Reg} (h1 : r ≠ .reportId) (h2 : r ≠ .chunkCap)
    (h3 : r ≠ .payloadLen) (h4 : r ≠ .seqOff) : s.readValue r < 2 ^ 32 := by
  cases r
  case ctrl | crcData => exact Nat.two_pow_pos 32
  case status => exact s.statusWord.isLt
  case frameCount => exact s.nfr.isLt.trans (by decide)
  case frameIndex => exact s.seqIdx.isLt.trans (by decide)
  case crcValue => exact s.crc.isLt.trans (by decide)
  case seqPhase => exact s.seqPhase.code.isLt.trans (by decide)
  case reportId | chunkCap | payloadLen | seqOff => contradiction

/-- Every register reads as a number of `W` bits. -/
theorem State.Inv.readValue_lt {s : State} (h : s.Inv) (r : Reg) : s.readValue r < 2 ^ s.W := by
  obtain ⟨hrid, hcap, hlen, -, -, hoff⟩ := h.ranges
  cases r
  case reportId => exact hrid
  case chunkCap => exact hcap
  case payloadLen => exact hlen
  case seqOff => exact hoff
  all_goals
    exact (s.readValue_lt_of_fixed_layout (by decide) (by decide) (by decide) (by decide)).trans_le
      (Nat.pow_le_pow_right (by decide) h.width)

/-! The obligation. -/

/-- The read clauses of R34, in a state that meets the invariant. -/
theorem State.Inv.exec_decodeRead_answers {s : State} (h : s.Inv) (r : Reg) : ∃ v : Nat,
    exec (decodeRead r) s = .next { s with replies := s.replies ++ [.data v] } ∧
    v < 2 ^ s.W ∧
    (r = .ctrl ∨ r = .crcData → v = 0) ∧
    (r = .reportId → v = s.reportId) ∧ (r = .chunkCap → v = s.chunkCap) ∧ (r = .payloadLen → v = s.payloadLen) ∧
    (r = .seqOff → v = s.seqOff) ∧
    (r ≠ .reportId → r ≠ .chunkCap → r ≠ .payloadLen → r ≠ .seqOff → v < 2 ^ 32) := by
  refine ⟨s.readValue r, exec_decodeRead r s, h.readValue_lt r, ?_, ?_, ?_, ?_, ?_, s.readValue_lt_of_fixed_layout⟩
  · rintro (rfl | rfl) <;> rfl
  all_goals rintro rfl; rfl

/-- Settles O57: the map from the decoder's own table, the reads from `State.readValue`, and the writes from what the
decoder makes of a whole-word write. -/
theorem registerMapAtEveryWidth : Obligations.RegisterMapAtEveryWidth := by
  refine ⟨by decide, fun _ => Reg.ofOffset_eq_none, fun r => ?_, fun _ => State.Inv.exec_decodeRead_answers, ?_⟩
  · have h := exec_decodeRead r State.reset
    rw [State.readValue_reset] at h
    exact h
  · intro s r w rest h
    have hd := decodeAccess_write s.W r w
    refine ⟨?reportId, ?chunkCap, ?payloadLen, fun hr => ?refused⟩
    case refused =>
      obtain ⟨e, he⟩ := decodeWrite_refused hr
      exact step_of_decodeAccess_error h (hd.trans he)
    all_goals
      rintro rfl
      exact step_of_decodeAccess_ok h hd

end Sys2Proof.Machine
end

section
/-! The side of the state that belongs to the platform, which no operation of the block writes (spec/20_memory.md
R50, R52, R56, R58). -/

namespace Sys2Proof.Machine

open Sys2Proof

/-- What the platform brings to the block: the payload space, its backing, the consumer's readiness, and what is still
to come. -/
structure Platform where
  pmem     : Memory
  unbacked : List (Nat × Nat)
  txReady  : Bool
  inbox    : List Request

/-- The platform's side of a state. -/
def State.platform (s : State) : Platform := ⟨s.pmem, s.unbacked, s.txReady, s.inbox⟩

@[simp] theorem State.platform_endFrame (s : State) : s.endFrame.platform = s.platform := by
  simp [State.platform]

@[simp] theorem State.platform_afterRead (s : State) (a : Nat) : (s.afterRead a).platform = s.platform := by
  simp [State.platform]

@[simp] theorem State.platform_readRun (s : State) (a n : Nat) : (s.readRun a n).2.platform = s.platform := by
  rw [State.readRun_state]
  rfl

@[simp] theorem State.platform_emitFrame (s : State) : s.emitFrame.platform = s.platform :=
  (State.platform_endFrame _).trans (s.platform_readRun s.dueBase s.dueLen)

/-- An operation that waits until it is enabled keeps the platform's side if its enabled case does. -/
theorem platform_eq_of_next_ite {c : Prop} [Decidable c] {s t u : State}
    (h : (.next (if c then u else s) : Host.Outcome State Fault Refusal) = .next t) (hu : u.platform = s.platform) :
    t.platform = s.platform := by
  cases h
  split
  · exact hu
  · rfl

/-- An operation with a condition on which it is refused keeps the platform's side if its accepted case does. -/
theorem platform_eq_of_refuse_ite {c : Prop} [Decidable c] {s t : State} {o : Host.Outcome State Fault Refusal}
    (h : (if c then refuse s else o) = .next t) (ho : o = .next t → t.platform = s.platform) :
    t.platform = s.platform := by
  split at h
  · cases h; rfl
  · exact ho h

/-- A `CMD.START` that is not refused answers one of two exceptions or begins the transfer; each writes registers of
the block alone. -/
theorem execCmdStart_platform {s t : State} (h : execCmdStart s = .next t) : t.platform = s.platform := by
  refine platform_eq_of_refuse_ite h fun h => ?_
  split at h
  case isTrue => cases h; rfl
  case isFalse => split at h <;> cases h <;> rfl

/-- R52: every operation keeps the platform's side of the state. -/
theorem exec_platform {i : Instr} {s t : State} (h : exec i s = .next t) : t.platform = s.platform := by
  cases i
  case frameFirst | frameMiddle | frameLast => exact platform_eq_of_next_ite h s.platform_emitFrame
  case cmdStart => exact execCmdStart_platform h
  case cmdClr | cmdCrcClr | wrCrcData => exact platform_eq_of_refuse_ite h fun h => by cases h; rfl
  case emitRid | emitFlags | emitReml | emitRemh | emitLen => exact platform_eq_of_next_ite h rfl
  case emitData => exact platform_eq_of_next_ite h (s.platform_afterRead s.dueAddr)
  case emitCrc => exact platform_eq_of_next_ite h (State.platform_endFrame (s.txEmit s.crc true))
  all_goals cases h; rfl

/-- Settles O48: the payload space is part of the platform's side, which every operation keeps. -/
theorem noOperationWritesMemory : Obligations.NoOperationWritesMemory := by
  intro i s t h
  obtain ⟨hmem, hback, hready, hinbox⟩ := Platform.mk.inj (exec_platform h)
  exact ⟨hmem, fun a => by rw [hmem], hback, hready, hinbox⟩

end Sys2Proof.Machine
end

section
/-! The steps by what they find in the inbox, the host operations of a BUSY block, and with them the block that waits
at an unbacked payload address until reset (spec/20_memory.md R58, R64, spec/42_host_interface.md R161). -/

namespace Sys2Proof

/-- The operations of the register writes with the data `v`: the commands and the writes of the other registers. -/
def writeOps (v : Nat) : List Instr :=
  [.cmdNop, .cmdStart, .cmdClr, .cmdCrcClr, .wrReportId v, .wrChunkCap v, .wrPayloadLen v, .wrCrcData v]

theorem mem_writeOps_of_decodeWrite {r : Reg} {v : Nat} {i : Instr} (h : decodeWrite r v = .ok i) :
    i ∈ writeOps v := by
  cases r
  case ctrl =>
    simp only [decodeWrite, decodeCommand] at h
    split at h <;> cases h <;> simp [writeOps]
  case crcData =>
    simp only [decodeWrite] at h
    split at h <;> cases h
    simp [writeOps]
  case reportId | chunkCap | payloadLen => cases h; simp [writeOps]
  all_goals cases h

/-- What a host access can decode to (R81 to R83). -/
theorem decodeAccess_ok_cases {W : Nat} {a : Access} {i : Instr} (h : decodeAccess W a = .ok i) :
    (∃ r, i = decodeRead r) ∨ i ∈ writeOps a.wdata.toNat := by
  simp only [decodeAccess] at h
  split at h
  case isFalse => cases h
  case isTrue =>
    split at h
    case h_2 => cases h
    case h_1 r _ =>
      split at h
      · cases h; exact .inl ⟨r, rfl⟩
      · exact .inr (mem_writeOps_of_decodeWrite h)

end Sys2Proof

namespace Sys2Proof.Machine

open Sys2Proof

/-! Steps and runs. -/

theorem step_of_fetch_none {s : State} (h : s.fetch = none) : step s = .next s.outside := by
  simp [step, h]

theorem step_of_fetch_some {s : State} {w : OpWord} {i : Instr} (hf : s.fetch = some w) (hd : decode s.W w = .ok i) :
    step s = exec i s.dropRequest := by
  simp [step, hf, hd]

theorem step_of_reset {s : State} {rest : List Request} (h : s.inbox = .reset :: rest) :
    step s = .next s.dropRequest.resetBlock := by
  simp [step_of_fetch_none, State.fetch, State.outside, h]

theorem runSteps_succ {s t : State} (h : step s = .next t) (k : Nat) : runSteps (k + 1) s = runSteps k t := by
  have hcore : core.step s = .next t := h
  simp only [runSteps, Host.Core.run, hcore]
  rfl

/-- While BUSY, an operation that a host access asks for writes the operand registers and answers, and does nothing
else: every command but NOP is refused (R161 to R177). -/
theorem exec_of_decodeAccess_of_busy {s : State} {W : Nat} {a : Access} {i : Instr} (hb : s.mode = .busy)
    (hd : decodeAccess W a = .ok i) : ∃ rid cap len replies, exec i s =
      .next { s with reportId := rid, chunkCap := cap, payloadLen := len, replies := replies } := by
  obtain ⟨r, rfl⟩ | hw := decodeAccess_ok_cases hd
  · exact ⟨_, _, _, _, exec_decodeRead r s⟩
  · simp only [writeOps, List.mem_cons, List.not_mem_nil, or_false] at hw
    obtain rfl | rfl | rfl | rfl | rfl | rfl | rfl | rfl := hw
    · exact ⟨_, _, _, _, rfl⟩
    iterate 3 · exact ⟨_, _, _, _, if_pos hb⟩
    iterate 3 · exact ⟨_, _, _, _, rfl⟩
    · exact ⟨_, _, _, _, if_pos (.inl hb)⟩

/-! The place of the sequencer. -/

/-- Where a transfer stands: all that decides whether the next payload address is backed, and what has been emitted up
to there. -/
structure Place where
  W        : Nat
  unbacked : List (Nat × Nat)
  cap      : Nat
  mode     : Mode
  phase    : Phase
  idx      : BitVec 17
  off      : Nat
  tx       : List Beat
  crc      : Byte

/-- The place at which a state's transfer stands. -/
def State.place (s : State) : Place :=
  ⟨s.W, s.unbacked, s.cap, s.mode, s.seqPhase, s.seqIdx, s.seqOff, s.tx, s.crc⟩

@[simp] theorem State.place_placePayload (s : State) (a : Nat) (b : Byte) : (s.placePayload a b).place = s.place := by
  simp [State.place]

/-- R64: the payload address due is one that the platform does not back. -/
structure State.Stuck (s : State) : Prop where
  busy     : s.mode = .busy
  data     : s.seqPhase = .data
  unbacked : ¬ s.backed s.dueAddr

/-- Whether a block is stuck shows in its place. -/
theorem State.Stuck.of_place_eq {s t : State} (h : s.Stuck) (e : t.place = s.place) : t.Stuck := by
  obtain ⟨hW, hu, hcap, hmode, hphase, hidx, hoff, -, -⟩ := Place.mk.inj e
  refine ⟨hmode.trans h.busy, hphase.trans h.data, ?_⟩
  simpa [State.backed, State.dueAddr, State.dueBase, hW, hu, hcap, hidx, hoff] using h.unbacked

theorem State.Stuck.exec_emitData {s : State} (h : s.Stuck) : exec .emitData s = .next s :=
  congrArg Host.Outcome.next (if_neg fun he => h.unbacked he.2)

/-- With the turn, a stuck sequencer keeps all state. -/
theorem State.Stuck.step_of_fetch {s : State} (h : s.Stuck) (hf : s.fetch = some (.seq s.seqPhase.code)) :
    step s = .next s.dropRequest := by
  rw [h.data] at hf
  rw [step_of_fetch_some hf (decodePhase_code .data)]
  exact State.Stuck.exec_emitData (h.of_place_eq rfl)

/-- A host access does not move a stuck block, whether it decodes or not. -/
theorem State.Stuck.step_of_host {s : State} {a : Access} {rest : List Request} (h : s.Stuck)
    (hi : s.inbox = .host a :: rest) : ∃ t, step s = .next t ∧ t.place = s.place ∧ t.inbox = rest := by
  cases hd : decodeAccess s.W a with
  | error e => exact ⟨_, step_of_decodeAccess_error hi hd, rfl, rfl⟩
  | ok i =>
    obtain ⟨rid, cap, len, replies, he⟩ :=
      exec_of_decodeAccess_of_busy (s := { s with inbox := rest }) h.busy hd
    exact ⟨_, (step_of_decodeAccess_ok hi hd).trans he, rfl, rfl⟩

/-- Every step but a reset leaves a stuck block where it is, and uses up the entry that brought it. -/
theorem State.Stuck.step_keeps_place {s : State} (h : s.Stuck) (hr : Request.reset ∉ s.inbox) :
    ∃ t, step s = .next t ∧ t.place = s.place ∧ t.inbox = s.inbox.tail := by
  have hb := h.busy
  have hp : s.seqPhase ≠ .rid := by simp [h.data]
  cases hi : s.inbox with
  | nil => exact ⟨_, h.step_of_fetch (by simp [State.fetch, hi, hb]), rfl, by simp [hi]⟩
  | cons r rest =>
    cases r with
    | host a => exact h.step_of_host hi
    | tick => exact ⟨_, h.step_of_fetch (by simp [State.fetch, hi, hb]), rfl, by simp [hi]⟩
    | reset => simp [hi] at hr
    | frameTurn | engine _ | payload _ _ | txReady _ =>
      refine ⟨_, step_of_fetch_none (by simp [State.fetch, hi, hb, hp]), ?_, ?_⟩
      · simp [State.outside, hi]; rfl
      · simp [State.outside, hi]

/-- R64, by induction on the number of steps: without a reset a stuck block stays at its place. -/
theorem State.Stuck.runSteps_keeps_place {s : State} (h : s.Stuck) (hr : Request.reset ∉ s.inbox) (k : Nat) :
    ∃ t, runSteps k s = .next t ∧ t.place = s.place := by
  induction k generalizing s with
  | zero => exact ⟨s, rfl, rfl⟩
  | succ k ih =>
    obtain ⟨u, hu, hplace, hinbox⟩ := h.step_keeps_place hr
    obtain ⟨t, ht, htu⟩ := ih (h.of_place_eq hplace) (hinbox ▸ fun hm => hr (List.mem_of_mem_tail hm))
    exact ⟨t, (runSteps_succ hu k).trans ht, htu.trans hplace⟩

/-- Settles O38: no range is unbacked after reset, a reset makes the block IDLE, and every other run of a stuck block
ends at the place where it began. -/
theorem unbackedAddressSticksUntilReset : Obligations.UnbackedAddressSticksUntilReset := by
  refine ⟨fun a ha => ⟨ha, fun r hr => nomatch hr⟩, fun s rest h => ⟨_, step_of_reset h, rfl⟩, ?_⟩
  intro k s hb hp hback hr
  have hs : s.Stuck := ⟨hb, hp, hback⟩
  obtain ⟨t, ht, hplace⟩ := hs.runSteps_keeps_place hr k
  obtain ⟨-, -, -, hmode, hphase, hidx, hoff, htx, hcrc⟩ := Place.mk.inj hplace
  exact ⟨t, ht, hmode.trans hb, hphase.trans hp, hidx, hoff, htx, hcrc⟩

end Sys2Proof.Machine
end

section
/-! A frame byte by byte, and the frames that the encoder never emits (spec/30_encoding.md R70 to R76, R81,
spec/41_encoder.md R122 to R127). -/

namespace Sys2Proof.Machine

open Sys2Proof

/-! The position flags and the remaining count. -/

/-- R72: a flags byte is one of three. -/
theorem flagsof_cases (i N : Nat) : flagsof i N = 0x80 ∨ flagsof i N = 0x40 ∨ flagsof i N = 0x20 := by
  unfold flagsof
  split
  · exact .inr (.inr rfl)
  · split
    · exact .inl rfl
    · exact .inr (.inl rfl)

theorem flagsof_eq_last_iff {i N : Nat} : flagsof i N = 0x20 ↔ i + 1 = N := by
  unfold flagsof
  split
  case isTrue h => exact iff_of_true rfl h
  case isFalse h =>
    refine iff_of_false ?_ h
    split <;> decide

theorem remaining_eq_zero_iff {i N : Nat} (hi : i < N) : remaining i N = 0 ↔ i + 1 = N := by
  unfold remaining
  omega

/-- The two bytes of a count that fits 16 bits are zero for the count 0 alone (R73). -/
theorem lowByte_highByte_eq_zero_iff {r : Nat} (h : r < 65536) : lowByte r = 0 ∧ highByte r = 0 ↔ r = 0 := by
  constructor
  · rintro ⟨hlo, hhi⟩
    simpa [hlo, hhi] using (lowByte_highByte h).symm
  · rintro rfl
    exact ⟨rfl, rfl⟩

/-- In a transfer the encoder accepts, every remaining count fits its two bytes (R73, R127). -/
theorem remaining_lt {i N : Nat} (hi : i < N) (hN : N ≤ Config.nmax) : remaining i N < 65536 := by
  simp only [Config.nmax] at hN
  unfold remaining
  omega

/-- R81: the two bytes of the remaining count are zero in a LAST frame and in no other. -/
theorem remainingBytes_eq_zero_iff_last {i N : Nat} (hi : i < N) (hN : N ≤ Config.nmax) :
    lowByte (remaining i N) = 0 ∧ highByte (remaining i N) = 0 ↔ flagsof i N = 0x20 := by
  rw [lowByte_highByte_eq_zero_iff (remaining_lt hi hN), remaining_eq_zero_iff hi, flagsof_eq_last_iff]

/-- R81: only a LAST frame has no data. -/
theorem flagsof_eq_last_of_datalen_eq_zero {i L C : Nat} (hC : 1 ≤ C) (hi : i < nframes L C)
    (h : datalen i L C = 0) : flagsof i (nframes L C) = 0x20 := by
  rw [flagsof_eq_last_iff]
  by_contra hlast
  have hfull : datalen i L C = C := datalen_of_not_last hC (by omega)
  omega

/-! The bytes of a frame. -/

/-- R126: the five header bytes, the data and the checksum, in order. -/
theorem frameOf_eq (rid : Byte) (i : Nat) (P : List Byte) (C : Nat) :
    frameOf rid i P C =
      rid :: flagsof i (nframes P.length C) :: lowByte (remaining i (nframes P.length C)) ::
        highByte (remaining i (nframes P.length C)) :: lowByte (datalen i P.length C) ::
        (dataof i P C ++ [crc8 (bodyOf i P C)]) := by
  rw [← length_dataof]
  rfl

theorem length_bodyOf (i : Nat) (P : List Byte) (C : Nat) : (bodyOf i P C).length = datalen i P.length C + 4 := by
  simp [bodyOf, bodyBytes, headerBytes, length_dataof]

theorem length_frameOf (rid : Byte) (i : Nat) (P : List Byte) (C : Nat) :
    (frameOf rid i P C).length = datalen i P.length C + 6 := by
  simp [frameOf_eq, length_dataof]

/-- R124: the data of a frame are the payload bytes from `i * C` on. -/
theorem getElem?_dataof (i : Nat) (P : List Byte) {k C : Nat} (hk : k < C) : (dataof i P C)[k]? = P[i * C + k]? := by
  rw [dataof, List.getElem?_take, if_pos hk, List.getElem?_drop]

/-- R76: the bytes between the report id and the checksum are the body. -/
theorem take_drop_frameOf (rid : Byte) (i : Nat) (P : List Byte) (C : Nat) :
    ((frameOf rid i P C).drop 1).take (datalen i P.length C + 4) = bodyOf i P C :=
  List.take_left' (length_bodyOf i P C)

theorem frameOf_getElem?_data (rid : Byte) (i : Nat) (P : List Byte) {k C : Nat} (hk : k < datalen i P.length C) :
    (frameOf rid i P C)[5 + k]? = P[i * C + k]? := by
  have hdata : (dataof i P C ++ [crc8 (bodyOf i P C)])[k]? = (dataof i P C)[k]? :=
    List.getElem?_append_left (length_dataof i P C ▸ hk)
  rw [Nat.add_comm, frameOf_eq]
  exact hdata.trans (getElem?_dataof i P (hk.trans_le (datalen_le_cap i P.length C)))

theorem frameOf_getElem?_checksum (rid : Byte) (i : Nat) (P : List Byte) (C : Nat) :
    (frameOf rid i P C)[5 + datalen i P.length C]? = some (crc8 (bodyOf i P C)) := by
  rw [Nat.add_comm, frameOf_eq, ← length_dataof]
  exact List.getElem?_concat_length

/-- Settles O16: a payload of at most `nmax` full frames has at most `nmax` frames, so the remaining count fits its two
bytes; every other byte stands where `frameOf_eq` puts it. -/
theorem frameLayout : Obligations.FrameLayout := by
  intro rid i P C hC hP hi
  have hN : nframes P.length C ≤ Config.nmax :=
    Nat.le_of_not_lt fun h => Nat.not_lt_of_le hP ((lt_nframes_iff hC (by decide)).mp h)
  refine ⟨length_frameOf rid i P C, rfl, ?_, ⟨_, _, rfl, rfl, lowByte_highByte (remaining_lt hi hN)⟩, ?_,
    fun k hk => frameOf_getElem?_data rid i P hk, ?_⟩
  · have hlast : i + 1 = nframes P.length C ↔ i = nframes P.length C - 1 := by omega
    exact congrArg some (if_congr hlast rfl rfl)
  · exact ⟨lowByte (datalen i P.length C), by rw [frameOf_eq]; rfl, BitVec.toNat_ofNat ..⟩
  · rw [take_drop_frameOf]
    exact frameOf_getElem?_checksum rid i P C

/-! What the encoder answers. -/

/-- R127: a sequence that the encoder answers is that of the frames of a transfer within both its limits. -/
theorem encodeFrames_eq_ok {P : List Byte} {rid C : Nat} {frames : List (List Byte)}
    (h : encodeFrames P rid C = .ok frames) :
    1 ≤ C ∧ nframes P.length C ≤ Config.nmax ∧
      frames = (List.range (nframes P.length C)).map fun i => frameOf (BitVec.ofNat 8 rid) i P C := by
  unfold encodeFrames at h
  split at h
  case isTrue => cases h
  case isFalse hconfig =>
    split at h
    case isTrue => cases h
    case isFalse hcapacity =>
      cases h
      exact ⟨by omega, by omega, rfl⟩

/-- Settles O19: in a frame of an accepted transfer the remaining count is zero exactly under the LAST flag, and only the
LAST frame can have no data. -/
theorem encoderNeverEmitsTheImpossible : Obligations.EncoderNeverEmitsTheImpossible := by
  intro P rid C frames h f hf
  obtain ⟨hC, hN, rfl⟩ := encodeFrames_eq_ok h
  obtain ⟨i, hmem, rfl⟩ := List.mem_map.mp hf
  have hi : i < nframes P.length C := List.mem_range.mp hmem
  have hlast := remainingBytes_eq_zero_iff_last hi hN
  have hnonzero {flags : Byte} (hne : flags ≠ 0x20) (hflags : flagsof i (nframes P.length C) = flags) :
      ¬ (lowByte (remaining i (nframes P.length C)) = 0 ∧ highByte (remaining i (nframes P.length C)) = 0) :=
    fun hzero => hne (hflags.symm.trans (hlast.mp hzero))
  have hlen := length_frameOf (BitVec.ofNat 8 rid) i P C
  refine ⟨_, _, _, _, _, _, frameOf_eq .., ?_, flagsof_cases _ _, ?_, hlast.mpr, ?_, ?_, ?_⟩
  · omega
  · exact hnonzero (by decide)
  · exact hnonzero (by decide)
  · have hcap := datalen_le_cap i P.length C
    omega
  · intro hsix
    exact flagsof_eq_last_of_datalen_eq_zero hC hi (by omega)

end Sys2Proof.Machine
end

section
/-! The checksum functions and the engine that runs them (spec/40_checksum.md R104 to R110): a shift step is a linear
bijection on the bytes, and absorbing a byte is an XOR and eight shift steps. -/

namespace Sys2Proof.Machine

open Sys2Proof

/-! One shift step. -/

/-- What a shift step XORs in, by the bit it shifts out (R100). -/
def crcFeedback (top : Bool) : Byte := if top then crcPoly else 0x00

theorem crcFeedback_xor (c d : Bool) : crcFeedback (c ^^ d) = crcFeedback c ^^^ crcFeedback d := by
  cases c <;> cases d <;> rfl

theorem crc8Bit_eq (r : Byte) : crc8Bit r = r <<< 1 ^^^ crcFeedback (r.getLsbD 7) := by
  rw [crc8Bit]
  cases r.getLsbD 7
  · exact BitVec.xor_zero.symm
  · rfl

/-- R109: the shift puts 0 there, and the polynomial has bit 0 set. -/
theorem crc8Bit_getLsbD_zero (r : Byte) : (crc8Bit r).getLsbD 0 = r.getLsbD 7 := by
  rw [crc8Bit_eq]
  cases r.getLsbD 7
  · simp [crcFeedback]
  · simp [crcFeedback, crcPoly]

/-- How R109 undoes a shift step: bit 0 of the result is the bit shifted out, and tells whether the polynomial was
XORed in. -/
def crc8Unbit (t : Byte) : Byte :=
  ((if t.getLsbD 0 then t ^^^ 0x07 else t) >>> 1) ||| (if t.getLsbD 0 then 0x80 else 0x00)

/-- A shift to the left loses bit 7 alone. -/
theorem shiftLeft_ushiftRight_or_top (r : Byte) : r <<< 1 >>> 1 ||| (if r.getLsbD 7 then 0x80 else 0x00) = r := by
  decide +revert

/-- Undoing the XOR leaves the shift. -/
theorem crc8Bit_unxor (r : Byte) : (if r.getLsbD 7 then crc8Bit r ^^^ 0x07 else crc8Bit r) = r <<< 1 := by
  rw [crc8Bit_eq]
  cases r.getLsbD 7
  · exact xor_zero _
  · exact xor_cancel_right _ _

theorem crc8Unbit_crc8Bit (r : Byte) : crc8Unbit (crc8Bit r) = r := by
  rw [crc8Unbit, crc8Bit_getLsbD_zero, crc8Bit_unxor, shiftLeft_ushiftRight_or_top]

theorem crc8Bit_bijective : Function.Bijective crc8Bit :=
  (Function.LeftInverse.injective crc8Unbit_crc8Bit).bijective_of_finite

/-- A shift step is linear, since the shift, the bit shifted out and what is XORed in for it are. -/
theorem crc8Bit_xor (a b : Byte) : crc8Bit (a ^^^ b) = crc8Bit a ^^^ crc8Bit b := by
  simp only [crc8Bit_eq, BitVec.shiftLeft_xor_distrib, BitVec.getLsbD_xor, crcFeedback_xor]
  ac_rfl

/-! Absorbing a byte. -/

/-- R101: the byte is XORed in, then eight shift steps. -/
theorem crc8Byte_eq (r b : Byte) : crc8Byte r b = crc8Bit^[8] (r ^^^ b) := rfl

theorem crc8Byte_eq_zero_left (r b : Byte) : crc8Byte r b = crc8Byte 0x00 (r ^^^ b) := by
  rw [crc8Byte_eq, crc8Byte_eq, zero_xor]

/-- Linearity of R110. -/
theorem crc8Byte_eq_xor (r b : Byte) : crc8Byte r b = crc8Byte r 0x00 ^^^ crc8Byte 0x00 b := by
  rw [crc8Byte_eq, crc8Byte_eq, crc8Byte_eq, xor_zero, zero_xor]
  exact Function.Semiconj₂.iterate (op := (· ^^^ ·)) crc8Bit_xor 8 r b

theorem crc8Byte_bijective_byte (r : Byte) : Function.Bijective fun b => crc8Byte r b :=
  (crc8Bit_bijective.iterate 8).comp (xor_right_involutive r).bijective

theorem crc8Byte_bijective_register (b : Byte) : Function.Bijective fun r => crc8Byte r b :=
  (crc8Bit_bijective.iterate 8).comp (xor_left_involutive b).bijective

/-- Absorbing a byte equal to the register empties it. -/
@[simp] theorem crc8Byte_self (r : Byte) : crc8Byte r r = 0x00 := by
  rw [crc8Byte_eq, BitVec.xor_self]
  exact Function.iterate_fixed (by decide) 8

/-! The checksum of a sequence. -/

theorem foldl_crc8Byte_injective (q : List Byte) : Function.Injective fun r => q.foldl crc8Byte r := by
  induction q with
  | nil => exact Function.injective_id
  | cons b q ih => exact ih.comp (crc8Byte_bijective_register b).injective

/-- R109: one changed byte changes the checksum. -/
theorem crc8_ne_of_byte_ne (p q : List Byte) {a b : Byte} (hab : a ≠ b) : crc8 (p ++ a :: q) ≠ crc8 (p ++ b :: q) := by
  rw [crc8_append, crc8_append]
  intro h
  exact hab ((crc8Byte_bijective_byte _).injective (foldl_crc8Byte_injective q h))

theorem ne_flipBit (a : Byte) {k : Nat} (hk : k < 8) : a ≠ a ^^^ (1 : Byte) <<< k := by
  intro h
  have hbit := congrArg (·.getLsbD k) h
  simp [hk] at hbit

/-- Settles O8: `crc8Unbit` undoes a shift step, so a step is a bijection, and so are eight of them after an XOR. -/
theorem checksumStepsAreBijections : Obligations.ChecksumStepsAreBijections :=
  ⟨crc8Bit_getLsbD_zero, fun r => (crc8Unbit_crc8Bit r).symm, crc8Bit_bijective, crc8Byte_bijective_register,
    crc8Byte_bijective_byte, fun p q _ _ hab => crc8_ne_of_byte_ne p q hab,
    fun p q a _ hk => crc8_ne_of_byte_ne p q (ne_flipBit a hk), fun r t => (crc8Byte_bijective_byte r).existsUnique t⟩

/-- The table that the spec prints is the one that `crc8_byte` computes. -/
theorem crcTable_eq : crcTable = (List.range 256).map fun v => crc8Byte 0x00 (BitVec.ofNat 8 v) := by
  decide +kernel

theorem crcTable_getElem? (v : Byte) : crcTable[v.toNat]? = some (crc8Byte 0x00 v) := by
  simp [crcTable_eq, v.isLt]

theorem crc8_residue (bytes : List Byte) : crc8 (bytes ++ [crc8 bytes]) = 0x00 := by
  rw [crc8_append_singleton, crc8Byte_self]

/-- Settles O9: the shift steps are linear, the table is checked entry by entry, and absorbing the checksum itself
leaves the register empty. -/
theorem checksumIsLinearWithResidueZero : Obligations.ChecksumIsLinearWithResidueZero :=
  ⟨crc8Byte_eq_xor, crc8Byte_eq_zero_left, crcTable_getElem?, crc8_residue⟩

theorem crc8_replicate_zero (n : Nat) : crc8 (List.replicate n 0x00) = 0x00 := by
  induction n with
  | zero => rfl
  | succ n ih => rw [List.replicate_succ', crc8_append_singleton, ih, crc8Byte_self]

theorem crc8_replicate_zero_append (n : Nat) (bytes : List Byte) :
    crc8 (List.replicate n 0x00 ++ bytes) = crc8 bytes := by
  rw [crc8_append, crc8_replicate_zero]
  rfl

/-- Settles O10, by induction on the number of zero bytes. -/
theorem zeroBytesLeadWithoutEffect : Obligations.ZeroBytesLeadWithoutEffect :=
  ⟨crc8_nil, crc8_replicate_zero, crc8_replicate_zero_append⟩

/-! The engine operations. -/

/-- Settles O11: the operations are the engine's two register writes. -/
theorem engineOperationsWriteTheChecksumRegister : Obligations.EngineOperationsWriteTheChecksumRegister :=
  fun _ => ⟨rfl, fun _ => rfl⟩

end Sys2Proof.Machine
end

section
/-! The encoder's arithmetic and the frames as a whole: the frame count, the data lengths and the slices of a payload,
the flags and the remaining counts, and the two forms of a frame's check (spec/41_encoder.md R120 to R126, R141 to
R145). -/

namespace Sys2Proof.Machine

open Sys2Proof

/-! The frame count. -/

/-- R120: a payload that is not empty needs no `max`. -/
theorem nframes_of_pos {L C : Nat} (hC : 1 ≤ C) (hL : 1 ≤ L) : nframes L C = (L + C - 1) / C :=
  Nat.max_eq_right ((Nat.one_le_div_iff (by omega)).mpr (by omega))

theorem nframes_zero {C : Nat} (hC : 1 ≤ C) : nframes 0 C = 1 := by
  rw [nframes, Nat.div_eq_of_lt (by omega), Nat.max_eq_left (by omega)]

/-- The ceiling of a quotient is the quotient, and one more for a remainder. -/
theorem add_sub_one_div (L : Nat) {C : Nat} (hC : 1 ≤ C) :
    (L + C - 1) / C = L / C + (if L % C ≠ 0 then 1 else 0) := by
  have hL := Nat.div_add_mod L C
  have hr : L % C < C := Nat.mod_lt L (by omega)
  have hsplit : L + C - 1 = C * (L / C) + (L % C + C - 1) := by omega
  rw [hsplit, Nat.mul_add_div (by omega), Nat.add_left_cancel_iff]
  split
  case isTrue h => exact Nat.div_eq_of_lt_le (by omega) (by omega)
  case isFalse h => exact Nat.div_eq_of_lt (by omega)

/-- Settles O13: the frame count is the ceiling, which `add_sub_one_div` writes with the remainder; its bounds are those
of the last frame. -/
theorem frameCountIsTheCeiling : Obligations.FrameCountIsTheCeiling := by
  intro L C hC
  refine ⟨nframes_zero hC, fun hL => ?_, lt_nframes_iff hC (by decide)⟩
  have hN := nframes_of_pos hC hL
  have hlast : nframes L C - 1 < nframes L C := Nat.sub_lt (one_le_nframes L C) Nat.one_pos
  exact ⟨hN, hN.trans (add_sub_one_div L hC), mul_lt_of_lt_nframes hC hlast (.inr hL), le_nframes_mul L hC⟩

/-! The data lengths and the slices. -/

/-- The first `k` frames hold the first `k * C` bytes, as far as there are so many. -/
theorem sum_datalen_range (L C k : Nat) : ((List.range k).map fun i => datalen i L C).sum = min L (k * C) := by
  induction k with
  | zero => simp
  | succ k ih =>
    rw [List.range_succ, List.map_append, List.sum_append, ih, List.map_singleton, List.sum_singleton,
      Nat.add_mul, Nat.one_mul]
    unfold datalen
    omega

/-- R121: the data lengths of a transfer sum up to its payload. -/
theorem sum_datalen (L : Nat) {C : Nat} (hC : 1 ≤ C) :
    ((List.range (nframes L C)).map fun i => datalen i L C).sum = L :=
  (sum_datalen_range L C _).trans (Nat.min_eq_left (le_nframes_mul L hC))

/-- The slices of the first `k` frames are the first `k * C` bytes. -/
theorem flatten_dataof_range (P : List Byte) (C k : Nat) :
    ((List.range k).map fun i => dataof i P C).flatten = P.take (k * C) := by
  induction k with
  | zero => simp
  | succ k ih =>
    rw [List.range_succ, List.map_append, List.flatten_append, ih, Nat.add_mul, Nat.one_mul, List.take_add]
    simp [dataof]

/-- The last frame of a transfer is the frame `nframes - 1`. -/
theorem nframes_sub_one_add_one (L C : Nat) : nframes L C - 1 + 1 = nframes L C :=
  Nat.sub_add_cancel (one_le_nframes L C)

/-- R121: the last frame holds what the full frames before it leave. -/
theorem datalen_last (L : Nat) {C : Nat} (hC : 1 ≤ C) :
    datalen (nframes L C - 1) L C = L - C * (nframes L C - 1) := by
  rw [datalen_of_last hC (nframes_sub_one_add_one L C), Nat.mul_comm]

/-- R121: only the frame of an empty payload is empty. -/
theorem one_le_datalen {i L C : Nat} (hC : 1 ≤ C) (hi : i < nframes L C) (hL : 1 ≤ L) : 1 ≤ datalen i L C := by
  have hbase := mul_lt_of_lt_nframes hC hi (.inr hL)
  unfold datalen
  omega

/-- Settles O14: each frame from where it begins in the payload, and the sum from that over the first `k` frames. -/
theorem dataLengthsPartitionThePayload : Obligations.DataLengthsPartitionThePayload := by
  intro L C hC
  have hlast : nframes L C - 1 < nframes L C := Nat.sub_lt (one_le_nframes L C) Nat.one_pos
  refine ⟨fun i hi => ⟨?_, fun hL => mul_lt_of_lt_nframes hC hi (.inr hL), rfl⟩, ?_,
    fun i => datalen_of_not_last hC, datalen_last L hC, fun hL => ⟨one_le_datalen hC hlast hL, datalen_le_cap _ _ _⟩,
    ?_, sum_datalen L hC⟩
  · exact (Nat.le_add_right _ _).trans (base_add_datalen_le hC hi)
  · rintro P i rfl
    exact length_dataof i P C
  · rintro rfl
    rw [datalen_last 0 hC, Nat.zero_sub]

/-- R70: the data field of a frame lies between the five bytes of its header and its last byte. -/
theorem drop_dropLast_frameOf (rid : Byte) (i : Nat) (P : List Byte) (C : Nat) :
    ((frameOf rid i P C).drop 5).dropLast = dataof i P C := by
  rw [frameOf_eq]
  exact List.dropLast_concat

/-- Settles O15: the slices of the first `k` frames are a beginning of the payload, and all frames hold all of it. -/
theorem slicesReassembleThePayload : Obligations.SlicesReassembleThePayload := by
  intro P C hC
  refine ⟨fun i => length_dataof i P C, fun i k hk => getElem?_dataof i P hk, ?_,
    fun rid i => drop_dropLast_frameOf rid i P C⟩
  rw [flatten_dataof_range, List.take_of_length_le (le_nframes_mul P.length hC)]

/-! The flags and the remaining counts. -/

theorem flagsof_eq_first_iff {i N : Nat} : flagsof i N = 0x80 ↔ i + 1 ≠ N ∧ i = 0 := by
  unfold flagsof
  split
  case isTrue h => exact iff_of_false (by decide) fun hn => hn.1 h
  case isFalse h =>
    split
    case isTrue h0 => exact iff_of_true rfl ⟨h, h0⟩
    case isFalse h0 => exact iff_of_false (by decide) fun hn => h0 hn.2

theorem flagsof_eq_middle_iff {i N : Nat} : flagsof i N = 0x40 ↔ i + 1 ≠ N ∧ i ≠ 0 := by
  unfold flagsof
  split
  case isTrue h => exact iff_of_false (by decide) fun hn => hn.1 h
  case isFalse h =>
    split
    case isTrue h0 => exact iff_of_false (by decide) fun hn => hn.2 h0
    case isFalse h0 => exact iff_of_true rfl ⟨h, h0⟩

/-- R142: the MIDDLE frames of a transfer are those between the first and the last. -/
theorem filter_middle (N : Nat) : (Finset.range N).filter (fun i => flagsof i N = 0x40) = Finset.Ico 1 (N - 1) := by
  ext i
  rw [Finset.mem_filter, Finset.mem_range, Finset.mem_Ico, flagsof_eq_middle_iff]
  omega

/-- Settles O17: what each of the three values says of the position, and the MIDDLE frames as an interval. -/
theorem flagsMarkThePositions : Obligations.FlagsMarkThePositions := by
  intro N hN
  refine ⟨fun i hi => ?_, fun i hi => ?_, fun i hi => ?_, fun i => flagsof_cases i N, ?_⟩
  · rw [flagsof_eq_last_iff]; omega
  · rw [flagsof_eq_first_iff]; omega
  · rw [flagsof_eq_middle_iff]; omega
  · have hcard := congrArg Finset.card (filter_middle N)
    rw [Nat.card_Ico, Nat.sub_sub] at hcard
    exact hcard

theorem frameOf_getElem?_length (rid : Byte) (i : Nat) (P : List Byte) (C : Nat) :
    (frameOf rid i P C)[4]? = some (lowByte (datalen i P.length C)) := by
  rw [frameOf_eq]
  rfl

theorem toNat_lowByte (v : Nat) : (lowByte v).toNat = v % 256 := BitVec.toNat_ofNat ..

theorem toNat_highByte (v : Nat) : (highByte v).toNat = v / 256 % 256 := BitVec.toNat_ofNat ..

/-- Settles O18: the length byte is the low byte of the data length, which is `C` before the last frame. -/
theorem remainingAndLengthFidelity : Obligations.RemainingAndLengthFidelity := by
  intro rid P C hC
  have hN := one_le_nframes P.length C
  refine ⟨fun h => by rw [h, nframes_zero hC], nframes_of_pos hC, ?_, rfl, fun _ _ => rfl, fun i hi => ?_,
    fun i hi => ?_, fun i hi => ⟨_, frameOf_getElem?_length rid i P C, fun hne => ?_, ?_, ?_⟩⟩
  · rw [remaining_eq_zero_iff (by omega)]; omega
  · unfold remaining; omega
  · rw [remaining_eq_zero_iff hi]; omega
  · rw [toNat_lowByte, datalen_of_not_last hC (by omega)]
  · rintro rfl
    rw [toNat_lowByte, datalen_last _ hC]
  · rw [toNat_lowByte]; omega

/-! The check of a frame. -/

/-- R126: after the report id, a frame is its body and the body's checksum. -/
theorem drop_one_frameOf (rid : Byte) (i : Nat) (P : List Byte) (C : Nat) :
    (frameOf rid i P C).drop 1 = bodyOf i P C ++ [crc8 (bodyOf i P C)] := rfl

/-- Settles O20: the checksum of a body and its own checksum is 0, and a frame ends with that of its body. -/
theorem framesCheckToZero : Obligations.FramesCheckToZero := by
  intro rid i P C
  rw [drop_one_frameOf, List.dropLast_concat]
  exact ⟨crc8_residue _, List.getLast?_concat (l := rid :: bodyOf i P C)⟩

end Sys2Proof.Machine
end

section
/-! The seven micro-operations of the sequencer, each in the state that enables it, and what none of them changes
(spec/30_encoding.md R84, spec/41_encoder.md R130 to R137). -/

namespace Sys2Proof.Machine

open Sys2Proof

/-! The micro-operation that a phase names. -/

/-- R84. -/
def Phase.microOp : Phase → Instr
  | .rid => .emitRid
  | .flags => .emitFlags
  | .reml => .emitReml
  | .remh => .emitRemh
  | .len => .emitLen
  | .data => .emitData
  | .crc => .emitCrc

/-- The decoder reads a phase code at every width as the phase's micro-operation. -/
@[simp] theorem decode_seq_code (W : Nat) (p : Phase) : decode W (.seq p.code) = .ok p.microOp := by
  cases p <;> rfl

/-! Each micro-operation where it is enabled. -/

section Enabled

variable {s : State} (hb : s.mode = .busy) (hr : s.txReady = true)

include hb hr

theorem exec_emitRid_of_enabled (hp : s.seqPhase = .rid) :
    exec .emitRid s = .next { s with tx := s.tx ++ [⟨s.rid, false⟩], crc := crcInit, seqPhase := .flags } :=
  congrArg Host.Outcome.next (if_pos ⟨hb, hp, hr⟩)

theorem exec_emitFlags_of_enabled (hp : s.seqPhase = .flags) :
    exec .emitFlags s = .next { s with
      tx := s.tx ++ [⟨s.dueFlags, false⟩], crc := crc8Byte s.crc s.dueFlags, seqPhase := .reml } :=
  congrArg Host.Outcome.next (if_pos ⟨hb, hp, hr⟩)

theorem exec_emitReml_of_enabled (hp : s.seqPhase = .reml) :
    exec .emitReml s = .next { s with
      tx := s.tx ++ [⟨lowByte s.dueRemaining, false⟩], crc := crc8Byte s.crc (lowByte s.dueRemaining),
      seqPhase := .remh } :=
  congrArg Host.Outcome.next (if_pos ⟨hb, hp, hr⟩)

theorem exec_emitRemh_of_enabled (hp : s.seqPhase = .remh) :
    exec .emitRemh s = .next { s with
      tx := s.tx ++ [⟨highByte s.dueRemaining, false⟩], crc := crc8Byte s.crc (highByte s.dueRemaining),
      seqPhase := .len } :=
  congrArg Host.Outcome.next (if_pos ⟨hb, hp, hr⟩)

theorem exec_emitLen_of_enabled (hp : s.seqPhase = .len) :
    exec .emitLen s = .next { s with
      tx := s.tx ++ [⟨lowByte s.dueLen, false⟩], crc := crc8Byte s.crc (lowByte s.dueLen), seqOff := 0,
      seqPhase := if s.dueLen = 0 then .crc else .data } :=
  congrArg Host.Outcome.next (if_pos ⟨hb, hp, hr⟩)

theorem exec_emitData_of_enabled (hp : s.seqPhase = .data) (hback : s.backed s.dueAddr) (hrace : ¬ s.raced s.dueAddr) :
    exec .emitData s = .next { s with
      tx := s.tx ++ [⟨s.pmem.read s.dueAddr, false⟩], crc := crc8Byte s.crc (s.pmem.read s.dueAddr),
      seqOff := s.seqOff + 1, seqPhase := if s.seqOff + 1 = s.dueLen then .crc else .data } := by
  have h : exec .emitData s = .next (((s.afterRead s.dueAddr).emitBody (s.payloadByte s.dueAddr)).goto s.seqIdx
      (if s.seqOff + 1 = s.dueLen then .crc else .data) (s.seqOff + 1)) :=
    congrArg Host.Outcome.next (if_pos ⟨⟨hb, hp, hr⟩, hback⟩)
  rw [State.afterRead_of_not_raced hrace, State.payloadByte_of_not_raced hrace] at h
  exact h

theorem exec_emitCrc_of_enabled (hp : s.seqPhase = .crc) : exec .emitCrc s = .next (s.txEmit s.crc true).endFrame :=
  congrArg Host.Outcome.next (if_pos ⟨hb, hp, hr⟩)

end Enabled

/-! The obligations. -/

/-- The flags byte due, with the test for the first frame on the index itself. -/
theorem State.dueFlags_eq (s : State) : s.dueFlags =
    if s.seqIdx.toNat + 1 = s.nfr.toNat then 0x20 else if s.seqIdx = 0 then 0x80 else 0x40 :=
  if_congr Iff.rfl rfl (if_congr (BitVec.toNat_inj (y := 0)) rfl rfl)

/-- Settles O32: each of the four from its enabled case, with the byte it emits written out. -/
theorem headerMicroOperations : Obligations.HeaderMicroOperations := by
  refine ⟨fun W => ⟨rfl, rfl, rfl, rfl⟩, fun s hb hr => ⟨exec_emitRid_of_enabled hb hr, ?_, ?_, ?_⟩⟩ <;> intro hp
  · exact ⟨s.dueFlags, s.dueFlags_eq, exec_emitFlags_of_enabled hb hr hp⟩
  · exact ⟨lowByte s.dueRemaining, toNat_lowByte _, exec_emitReml_of_enabled hb hr hp⟩
  · exact ⟨highByte s.dueRemaining, toNat_highByte _, exec_emitRemh_of_enabled hb hr hp⟩

/-- Settles O33: the byte is the low one of the data length, and the branch is on the whole of it. -/
theorem lengthMicroOperation : Obligations.LengthMicroOperation :=
  ⟨fun _ => rfl, fun s hb hr hp => ⟨lowByte s.dueLen, toNat_lowByte _, exec_emitLen_of_enabled hb hr hp⟩⟩

/-- Settles O34: without a race the byte read is the one that memory holds, and the read leaves no trace. -/
theorem dataMicroOperation : Obligations.DataMicroOperation := by
  refine ⟨fun _ => rfl, fun s hb hr hp hback hrace => ⟨_, rfl, exec_emitData_of_enabled hb hr hp hback ?_⟩⟩
  rintro ⟨c, hc, haddr⟩
  exact hrace c hc haddr

/-- Settles O36: the beat first, then the end of the frame, by whether it was the last. -/
theorem checksumMicroOperation : Obligations.ChecksumMicroOperation := by
  refine ⟨fun _ => rfl, fun s hb hr hp => ⟨fun hlast => ?_, fun hnext => ?_⟩⟩
  · rw [exec_emitCrc_of_enabled hb hr hp, State.endFrame_last (s := s.txEmit s.crc true) hlast]; rfl
  · rw [exec_emitCrc_of_enabled hb hr hp, State.endFrame_next (s := s.txEmit s.crc true) hnext]; rfl

end Sys2Proof.Machine
end

section
/-! A transfer in progress: what its frames are made of, what it has still to emit, and what each micro-operation and
each frame operation takes of that (spec/10_state.md R24, R28, R44, spec/41_encoder.md R125, R130 to R137). -/

namespace Sys2Proof.Machine

open Sys2Proof

/-! What the frames of a transfer are made of. -/

/-- The latched copies and the payload: all that decides the frames of a transfer (R24, R125). -/
structure Transfer where
  rid     : Byte
  cap     : Nat
  plen    : Nat
  nfr     : BitVec 17
  payload : List Byte

/-- The transfer that a state's latched copies describe. -/
def State.transfer (s : State) : Transfer := ⟨s.rid, s.cap, s.plen, s.nfr, s.payload⟩

section Congr

variable {s t : State} (ht : t.transfer = s.transfer)

include ht

theorem State.body_congr (j : Nat) : t.body j = s.body j :=
  congrArg (fun T : Transfer => bodyOf j T.payload T.cap) ht

theorem State.framesFrom_congr (i : Nat) : t.framesFrom i = s.framesFrom i := by
  obtain ⟨hrid, -, -, hnfr, -⟩ := Transfer.mk.inj ht
  simp only [State.framesFrom, hrid, hnfr, State.body_congr ht]

theorem State.dueLen_congr (hi : t.seqIdx = s.seqIdx) : t.dueLen = s.dueLen := by
  obtain ⟨-, hcap, hplen, -, -⟩ := Transfer.mk.inj ht
  simp only [State.dueLen, hcap, hplen, hi]

end Congr

/-- Where a transfer stands shows in the place of the sequencer, and with it what is still to be emitted. -/
theorem State.pending_congr {s t : State} (ht : t.transfer = s.transfer) (hp : t.place = s.place) :
    t.pending = s.pending := by
  obtain ⟨-, -, -, hmode, hphase, hidx, hoff, -, -⟩ := Place.mk.inj hp
  simp only [State.pending, State.beatsSent, State.bodySent, hmode, hphase, hidx, hoff, State.framesFrom_congr ht]

/-! A transfer in progress. -/

/-- The latched copies describe a transfer, the position lies in it, and the checksum register is in step: of
`State.Inv` and `State.crcInStep`, as much as the frames of a transfer rest on. -/
structure State.InTransfer (s : State) : Prop where
  busy    : s.mode = .busy
  cap     : 1 ≤ s.cap
  count   : s.nfr.toNat = nframes s.plen s.cap
  index   : s.seqIdx.toNat < s.nfr.toNat
  offData : s.seqPhase = .data → s.seqOff < s.dueLen
  offCrc  : s.seqPhase = .crc → s.seqOff = s.dueLen
  crc     : s.crcInStep

/-- Within a frame, a transfer goes on if phase, offset and checksum do. -/
theorem State.InTransfer.moveInFrame {s t : State} (h : s.InTransfer) (ht : t.transfer = s.transfer)
    (hb : t.mode = .busy) (hi : t.seqIdx = s.seqIdx) (hd : t.seqPhase = .data → t.seqOff < s.dueLen)
    (hc : t.seqPhase = .crc → t.seqOff = s.dueLen)
    (hcrc : t.seqPhase ≠ .rid → t.crc = crc8 ((s.body s.seqIdx.toNat).take t.bodySent)) : t.InTransfer := by
  obtain ⟨-, hcap, hplen, hnfr, -⟩ := Transfer.mk.inj ht
  have hlen : t.dueLen = s.dueLen := State.dueLen_congr ht hi
  refine ⟨hb, hcap ▸ h.cap, ?_, ?_, hlen ▸ hd, hlen ▸ hc, fun _ => ?_⟩
  · rw [hnfr, hplen, hcap]; exact h.count
  · rw [hi, hnfr]; exact h.index
  · rw [hi, State.body_congr ht]; exact hcrc

theorem State.InTransfer.congr {s t : State} (h : s.InTransfer) (ht : t.transfer = s.transfer)
    (hp : t.place = s.place) : t.InTransfer := by
  obtain ⟨-, -, -, hmode, hphase, hidx, hoff, -, hcrc⟩ := Place.mk.inj hp
  have hsent : t.bodySent = s.bodySent := by simp only [State.bodySent, hphase, hoff]
  refine h.moveInFrame ht (hmode.trans h.busy) hidx ?_ ?_ ?_ <;> rw [hphase]
  · rw [hoff]; exact h.offData
  · rw [hoff]; exact h.offCrc
  · rw [hcrc, hsent]; exact h.crc h.busy

/-! The bytes of the frame being emitted. -/

theorem bodyOf_eq (i : Nat) (P : List Byte) (C : Nat) :
    bodyOf i P C = flagsof i (nframes P.length C) :: lowByte (remaining i (nframes P.length C)) ::
      highByte (remaining i (nframes P.length C)) :: lowByte (datalen i P.length C) :: dataof i P C := by
  rw [← length_dataof]
  rfl

@[simp] theorem State.length_payload (s : State) : s.payload.length = s.plen := s.pmem.length_slice 0 s.plen

theorem State.length_body (s : State) : (s.body s.seqIdx.toNat).length = s.dueLen + 4 := by
  rw [State.body, length_bodyOf, State.length_payload]
  rfl

section InTransfer

variable {s : State} (h : s.InTransfer)

include h

/-- R125: the body of the frame being emitted, in terms of what is due. -/
theorem State.InTransfer.body_eq : s.body s.seqIdx.toNat = s.dueFlags :: lowByte s.dueRemaining ::
    highByte s.dueRemaining :: lowByte s.dueLen :: dataof s.seqIdx.toNat s.payload s.cap := by
  rw [State.body, bodyOf_eq, State.length_payload, ← h.count]
  rfl

/-- R136: the data byte `k` of the frame being emitted stands in memory at `i * cap + k`. -/
theorem State.InTransfer.getElem?_body_data {k : Nat} (hk : k < s.dueLen) :
    (s.body s.seqIdx.toNat)[4 + k]? = some (s.pmem.read (s.dueBase + k)) := by
  have hfit : s.dueBase + s.dueLen ≤ s.plen := base_add_datalen_le h.cap (h.count ▸ h.index)
  have hdata : (dataof s.seqIdx.toNat s.payload s.cap)[k]? = s.payload[s.dueBase + k]? :=
    getElem?_dataof _ _ (hk.trans_le (datalen_le_cap _ _ _))
  rw [h.body_eq, Nat.add_comm]
  refine hdata.trans ?_
  rw [State.payload, Memory.getElem?_slice _ (by omega), Nat.zero_add]

/-- A whole frame read from memory has the body of the frame being emitted. -/
theorem State.InTransfer.bodyBytes_slice :
    bodyBytes s.dueFlags s.dueRemaining (s.pmem.slice s.dueBase s.dueLen) = s.body s.seqIdx.toNat := by
  have hfit : s.dueBase + s.dueLen ≤ s.plen := base_add_datalen_le h.cap (h.count ▸ h.index)
  rw [h.body_eq, State.payload, dataof_slice _ _ _ _ ((Nat.le_add_right _ _).trans hfit), bodyBytes,
    Memory.length_slice]
  rfl

end InTransfer

/-! What a transfer has still to emit. -/

/-- The beats of a transfer from byte `k` of the body of the current frame on. -/
def State.beatsFrom (s : State) (k : Nat) : List Beat :=
  ((s.body s.seqIdx.toNat).drop k).map (fun b => ⟨b, false⟩) ++
    ⟨crc8 (s.body s.seqIdx.toNat), true⟩ :: s.framesFrom (s.seqIdx.toNat + 1)

theorem State.beatsFrom_congr {s t : State} (ht : t.transfer = s.transfer) (hi : t.seqIdx = s.seqIdx) (k : Nat) :
    t.beatsFrom k = s.beatsFrom k := by
  simp only [State.beatsFrom, hi, State.body_congr ht, State.framesFrom_congr ht]

theorem State.beatsFrom_of_getElem? {s : State} {k : Nat} {b : Byte} (hb : (s.body s.seqIdx.toNat)[k]? = some b) :
    s.beatsFrom k = ⟨b, false⟩ :: s.beatsFrom (k + 1) := by
  obtain ⟨hk, rfl⟩ := List.getElem?_eq_some_iff.mp hb
  rw [State.beatsFrom, List.drop_eq_getElem_cons hk]
  rfl

theorem State.beatsFrom_of_length_le {s : State} {k : Nat} (hk : (s.body s.seqIdx.toNat).length ≤ k) :
    s.beatsFrom k = ⟨crc8 (s.body s.seqIdx.toNat), true⟩ :: s.framesFrom (s.seqIdx.toNat + 1) := by
  rw [State.beatsFrom, List.drop_of_length_le hk]
  rfl

theorem State.beatsSent_of_ne_rid {s : State} (hp : s.seqPhase ≠ .rid) : s.beatsSent = s.bodySent + 1 := by
  rw [Nat.add_comm]
  unfold State.beatsSent
  split
  · contradiction
  all_goals rfl

theorem State.InTransfer.bodySent_le {s : State} (h : s.InTransfer) :
    s.bodySent ≤ (s.body s.seqIdx.toNat).length := by
  rw [s.length_body]
  unfold State.bodySent
  cases hp : s.seqPhase
  case data =>
    have hoff := h.offData hp
    simp only
    omega
  case crc => rw [h.offCrc hp, Nat.add_comm]
  all_goals simp only; omega

section Pending

variable {s : State} (h : s.InTransfer)

include h

theorem State.InTransfer.pending_eq_drop : s.pending = (s.framesFrom s.seqIdx.toNat).drop s.beatsSent :=
  if_pos h.busy

theorem State.InTransfer.framesFrom_seqIdx :
    s.framesFrom s.seqIdx.toNat = ⟨s.rid, false⟩ :: s.beatsFrom 0 := by
  rw [State.framesFrom_succ h.index, frameBeats_eq, List.append_assoc]
  rfl

theorem State.InTransfer.pending_of_rid (hp : s.seqPhase = .rid) : s.pending = ⟨s.rid, false⟩ :: s.beatsFrom 0 := by
  rw [h.pending_eq_drop, h.framesFrom_seqIdx, State.beatsSent, hp]
  rfl

theorem State.InTransfer.pending_of_ne_rid (hp : s.seqPhase ≠ .rid) : s.pending = s.beatsFrom s.bodySent := by
  rw [h.pending_eq_drop, h.framesFrom_seqIdx, State.beatsSent_of_ne_rid hp, List.drop_succ_cons, State.beatsFrom,
    List.drop_append_of_le_length (by simpa using h.bodySent_le), ← List.map_drop]
  rfl

/-- A transfer in progress has a beat to emit. -/
theorem State.InTransfer.pending_ne_nil : s.pending ≠ [] := by
  by_cases hp : s.seqPhase = .rid
  · simp [h.pending_of_rid hp]
  · simp [h.pending_of_ne_rid hp, State.beatsFrom]

end Pending

theorem State.pending_of_not_busy {s : State} (h : s.mode ≠ .busy) : s.pending = [] := if_neg h

/-! Taking beats from it. -/

/-- From `s` to `t` a transfer emits the beats `new`, the first of those that it had still to emit. -/
structure State.Sends (s t : State) (new : List Beat) : Prop where
  tx      : t.tx = s.tx ++ new
  pending : s.pending = new ++ t.pending
  goesOn  : t.InTransfer ∨ t.mode = .done

namespace State.InTransfer

variable {s t : State}

/-- Where neither the transfer nor its place changes, nothing is emitted. -/
theorem sends_nil (h : s.InTransfer) (ht : t.transfer = s.transfer) (hp : t.place = s.place) : s.Sends t [] := by
  obtain ⟨-, -, -, -, -, -, -, htx, -⟩ := Place.mk.inj hp
  exact ⟨by simp [htx], (State.pending_congr ht hp).symm, .inl (h.congr ht hp)⟩

/-- R131: the report id begins a frame and an empty checksum. -/
theorem sends_rid (h : s.InTransfer) (hp : s.seqPhase = .rid) :
    s.Sends (((s.txEmit s.rid false).crcClear).toPhase .flags) [⟨s.rid, false⟩] := by
  have ht : (((s.txEmit s.rid false).crcClear).toPhase .flags).InTransfer :=
    h.moveInFrame rfl h.busy rfl (fun hd => nomatch hd) (fun hc => nomatch hc) fun _ => rfl
  refine ⟨rfl, ?_, .inl ht⟩
  rw [h.pending_of_rid hp, ht.pending_of_ne_rid (by simp)]
  rfl

/-- R132 to R136: the next byte of the body is emitted and absorbed. -/
theorem sends_emitBody {b : Byte} {p : Phase} {o : Nat} (h : s.InTransfer) (hp : s.seqPhase ≠ .rid)
    (hbyte : (s.body s.seqIdx.toNat)[s.bodySent]? = some b) (hp' : p ≠ .rid)
    (hsent : ((s.emitBody b).goto s.seqIdx p o).bodySent = s.bodySent + 1) (hd : p = .data → o < s.dueLen)
    (hc : p = .crc → o = s.dueLen) : s.Sends ((s.emitBody b).goto s.seqIdx p o) [⟨b, false⟩] := by
  have ht : ((s.emitBody b).goto s.seqIdx p o).InTransfer := by
    refine h.moveInFrame rfl h.busy rfl hd hc fun _ => ?_
    rw [hsent, List.take_add_one, hbyte, Option.toList_some, crc8_append_singleton, ← h.crc h.busy hp]
    rfl
  refine ⟨rfl, ?_, .inl ht⟩
  rw [h.pending_of_ne_rid hp, State.beatsFrom_of_getElem? hbyte, ht.pending_of_ne_rid hp', hsent]
  rfl

/-- R132 to R134: body byte `k`, one of the header before the length. -/
theorem sends_header {k : Nat} {b : Byte} {p : Phase} (h : s.InTransfer) (hp : s.seqPhase ≠ .rid)
    (hk : s.bodySent = k) (hbyte : (s.body s.seqIdx.toNat)[k]? = some b)
    (hsent : ((s.emitBody b).toPhase p).bodySent = k + 1) (hp' : p ∉ [Phase.rid, .data, .crc]) :
    s.Sends ((s.emitBody b).toPhase p) [⟨b, false⟩] := by
  subst hk
  simp only [List.mem_cons, List.not_mem_nil, or_false, not_or] at hp'
  obtain ⟨hrid, hdata, hcrc⟩ := hp'
  exact h.sends_emitBody hp hbyte hrid hsent (absurd · hdata) (absurd · hcrc)

/-- R135, R136: after the length byte or a data byte, with `o` data bytes sent, the phase is CRC if those are all. -/
theorem sends_beforeData {b : Byte} {p : Phase} {o : Nat} (h : s.InTransfer) (hp : s.seqPhase ≠ .rid)
    (hbyte : (s.body s.seqIdx.toNat)[s.bodySent]? = some b) (ho : o ≤ s.dueLen) (hsent : 4 + o = s.bodySent + 1)
    (hp' : p = if o = s.dueLen then .crc else .data) :
    s.Sends ((s.emitBody b).goto s.seqIdx p o) [⟨b, false⟩] := by
  by_cases hall : o = s.dueLen
  · rw [if_pos hall] at hp'
    subst hp'
    exact h.sends_emitBody hp hbyte (by decide) hsent (fun hd => nomatch hd) fun _ => hall
  · rw [if_neg hall] at hp'
    subst hp'
    exact h.sends_emitBody hp hbyte (by decide) hsent (fun _ => Nat.lt_of_le_of_ne ho hall) fun hc => nomatch hc

/-- The end of a frame leaves the frames after it to be emitted, or none (R137). -/
theorem endFrame_goesOn (h : s.InTransfer) (ht : t.transfer = s.transfer) (hb : t.mode = .busy) (hi : t.seqIdx = s.seqIdx) :
    t.endFrame.pending = s.framesFrom (s.seqIdx.toNat + 1) ∧ (t.endFrame.InTransfer ∨ t.endFrame.mode = .done) := by
  obtain ⟨-, hcap, hplen, hnfr, -⟩ := Transfer.mk.inj ht
  by_cases hlast : t.seqIdx.toNat + 1 = t.nfr.toNat
  · have hdone : t.endFrame.mode = .done := by rw [State.endFrame_last hlast]
    refine ⟨?_, .inr hdone⟩
    rw [State.pending_of_not_busy (by simp [hdone]), ← hi, State.framesFrom, ← hnfr, ← hlast, Nat.sub_self]
    rfl
  · have hlt : t.seqIdx.toNat + 1 < t.nfr.toNat := by
      have hindex := h.index
      rw [← hi, ← hnfr] at hindex
      omega
    have hnext : (t.seqIdx + 1).toNat = t.seqIdx.toNat + 1 := by
      have hmax := t.nfr.isLt
      rw [BitVec.toNat_add]
      exact Nat.mod_eq_of_lt (by simpa using hlt.trans hmax)
    rw [State.endFrame_next hlast]
    refine ⟨?_, .inl ?_⟩
    · rw [State.pending, if_pos hb, ← hi, ← hnext, ← State.framesFrom_congr ht]
      rfl
    · refine ⟨hb, hcap ▸ h.cap, ?_, hnext ▸ hlt, (fun hd => nomatch hd), (fun hc => nomatch hc),
        fun _ hp => absurd rfl hp⟩
      rw [hnfr, hplen, hcap]
      exact h.count

/-- R137: the checksum ends a frame. -/
theorem sends_crc (h : s.InTransfer) (hp : s.seqPhase = .crc) :
    s.Sends (s.txEmit s.crc true).endFrame [⟨s.crc, true⟩] := by
  obtain ⟨hpend, hgoes⟩ := h.endFrame_goesOn (t := s.txEmit s.crc true) rfl h.busy rfl
  have hne : s.seqPhase ≠ .rid := by simp [hp]
  have hsent : (s.body s.seqIdx.toNat).length ≤ s.bodySent := by
    rw [s.length_body, State.bodySent, hp, h.offCrc hp, Nat.add_comm]
  refine ⟨by simp, ?_, hgoes⟩
  rw [hpend, h.pending_of_ne_rid hne, State.beatsFrom_of_length_le hsent, h.crc h.busy hne,
    List.take_of_length_le hsent]
  rfl

/-- R126: a frame operation emits the frame that the sequencer stands at. -/
theorem sends_emitFrame (h : s.InTransfer) (hp : s.seqPhase = .rid) (hs : s.payloadStable) :
    s.Sends s.emitFrame (frameBeats s.rid (s.body s.seqIdx.toNat)) := by
  have hframe : s.emitFrame = State.endFrame
      { s with tx := s.tx ++ frameBeats s.rid (s.body s.seqIdx.toNat), crc := crc8 (s.body s.seqIdx.toNat) } := by
    rw [← h.bodyBytes_slice, State.emitFrame, State.readRun_of_stale_nil hs]
  rw [hframe]
  obtain ⟨hpend, hgoes⟩ := h.endFrame_goesOn (t := { s with
    tx := s.tx ++ frameBeats s.rid (s.body s.seqIdx.toNat), crc := crc8 (s.body s.seqIdx.toNat) }) rfl h.busy rfl
  refine ⟨by simp, ?_, hgoes⟩
  rw [hpend, h.pending_eq_drop, State.beatsSent, hp, ← State.framesFrom_succ h.index]
  rfl

end State.InTransfer

end Sys2Proof.Machine
end

section
/-! Steps of a BUSY block and whole transfers: the micro-operation due, the steps of every interleaving, and with them
that the machine emits the frames of the encoder (spec/20_memory.md R58, R62, R64, spec/41_encoder.md R127 to R130,
R140). -/

namespace Sys2Proof.Machine

open Sys2Proof

/-! The micro-operation that is due. -/

/-- What holds the sequencer up or lets it go on, and what it reads: nothing that a micro-operation changes. -/
structure Surroundings where
  W        : Nat
  plen     : Nat
  platform : Platform
  stale    : List Host.Cell

/-- The surroundings of the sequencer. -/
def State.surroundings (s : State) : Surroundings := ⟨s.W, s.plen, s.platform, s.stale⟩

@[simp] theorem State.surroundings_endFrame (s : State) : s.endFrame.surroundings = s.surroundings := by
  simp [State.surroundings]

@[simp] theorem State.surroundings_afterRead (s : State) (a : Nat) : (s.afterRead a).surroundings = s.surroundings := by
  simp [State.surroundings]

@[simp] theorem State.surroundings_emitFrame (s : State) : s.emitFrame.surroundings = s.surroundings := by
  rw [State.emitFrame, State.surroundings_endFrame, State.readRun_state]
  rfl

/-- An operation that waits until it is enabled keeps the surroundings if its enabled case does. -/
theorem surroundings_eq_of_next_ite {c : Prop} [Decidable c] {s t u : State}
    (h : (.next (if c then u else s) : Host.Outcome State Fault Refusal) = .next t)
    (hu : u.surroundings = s.surroundings) : t.surroundings = s.surroundings := by
  cases h
  split
  · exact hu
  · rfl

theorem exec_microOp_surroundings {p : Phase} {s t : State} (h : exec p.microOp s = .next t) :
    t.surroundings = s.surroundings := by
  cases p
  case rid | flags | reml | remh | len => exact surroundings_eq_of_next_ite h rfl
  case data => exact surroundings_eq_of_next_ite h (s.surroundings_afterRead s.dueAddr)
  case crc => exact surroundings_eq_of_next_ite h (State.surroundings_endFrame (s.txEmit s.crc true))

/-- R64: nothing holds the sequencer up. -/
def State.Unheld (s : State) : Prop := s.txReady = true ∧ (s.seqPhase = .data → s.backed s.dueAddr)

/-- R64, R193: held up, the micro-operation due leaves the state as it is. -/
theorem exec_microOp_of_held {s : State} (h : ¬ s.Unheld) : exec s.seqPhase.microOp s = .next s := by
  have hready {p : Phase} (hp : s.seqPhase = p) (hd : p ≠ .data) : ¬ s.enabled p :=
    fun he => h ⟨he.2.2, fun hd' => absurd (hp.symm.trans hd') hd⟩
  cases hp : s.seqPhase
  case data => exact congrArg Host.Outcome.next (if_neg fun he => h ⟨he.1.2.2, fun _ => he.2⟩)
  all_goals exact congrArg Host.Outcome.next (if_neg (hready hp (by decide)))

/-- R131 to R137: with the payload stable and nothing to hold it up, the micro-operation due emits one beat of the
transfer. -/
theorem State.InTransfer.exec_microOp_sends {s : State} (h : s.InTransfer) (hs : s.payloadStable) (hu : s.Unheld) :
    ∃ t x, exec s.seqPhase.microOp s = .next t ∧ s.Sends t [x] := by
  obtain ⟨hr, hback⟩ := hu
  have hb := h.busy
  cases hp : s.seqPhase
  case rid => exact ⟨_, _, exec_emitRid_of_enabled hb hr hp, h.sends_rid hp⟩
  case flags =>
    exact ⟨_, _, exec_emitFlags_of_enabled hb hr hp, h.sends_header (by simp [hp]) (by rw [State.bodySent, hp])
      (congrArg (·[0]?) h.body_eq) rfl (by decide)⟩
  case reml =>
    exact ⟨_, _, exec_emitReml_of_enabled hb hr hp, h.sends_header (by simp [hp]) (by rw [State.bodySent, hp])
      (congrArg (·[1]?) h.body_eq) rfl (by decide)⟩
  case remh =>
    exact ⟨_, _, exec_emitRemh_of_enabled hb hr hp, h.sends_header (by simp [hp]) (by rw [State.bodySent, hp])
      (congrArg (·[2]?) h.body_eq) rfl (by decide)⟩
  case len =>
    have hsent : s.bodySent = 3 := by rw [State.bodySent, hp]
    have hbyte : (s.body s.seqIdx.toNat)[s.bodySent]? = some (lowByte s.dueLen) :=
      hsent ▸ congrArg (·[3]?) h.body_eq
    exact ⟨_, _, exec_emitLen_of_enabled hb hr hp,
      h.sends_beforeData (by simp [hp]) hbyte (Nat.zero_le _) (by rw [hsent]) (if_congr eq_comm rfl rfl)⟩
  case data =>
    have hoff := h.offData hp
    have hsent : s.bodySent = 4 + s.seqOff := by rw [State.bodySent, hp]
    have hbyte : (s.body s.seqIdx.toNat)[s.bodySent]? = some (s.pmem.read s.dueAddr) :=
      hsent ▸ h.getElem?_body_data hoff
    exact ⟨_, _, exec_emitData_of_enabled hb hr hp (hback hp) (State.not_raced_of_stale_nil hs _),
      h.sends_beforeData (by simp [hp]) hbyte hoff (by rw [hsent, Nat.add_assoc]) rfl⟩
  case crc => exact ⟨_, _, exec_emitCrc_of_enabled hb hr hp, h.sends_crc hp⟩

/-! The steps of a BUSY block. -/

/-- The flags byte due decodes to the frame operation of its kind (R80, R122). -/
theorem decode_dueFlags (W : Nat) (s : State) :
    ∃ i, decode W (.frame s.dueFlags) = .ok i ∧ exec i = frameOperation s.dueFlags := by
  obtain h | h | h := flagsof_cases s.seqIdx.toNat s.nfr.toNat <;> rw [State.dueFlags, h] <;> exact ⟨_, rfl, rfl⟩

/-- A step that leaves the transfer alone: neither its frames nor its place change. -/
structure State.Quiet (s t : State) : Prop where
  transfer : t.transfer = s.transfer
  place    : t.place = s.place
  pmem     : t.pmem = s.pmem
  stale    : t.stale = s.stale
  inbox    : t.inbox = s.inbox.tail

/-- What a step of a BUSY block without a reset can be (R58, R106, R130): an event that leaves the transfer alone, a
payload byte placed, the micro-operation due, or in a frame turn the frame operation due. -/
theorem step_of_busy {s t : State} (hb : s.mode = .busy) (hr : Request.reset ∉ s.inbox) (h : step s = .next t) :
    s.Quiet t ∨ (∃ a b, t = s.dropRequest.placePayload a b) ∨ exec s.seqPhase.microOp s.dropRequest = .next t ∨
      s.seqPhase = .rid ∧ frameOperation s.dueFlags s.dropRequest = .next t := by
  have hturn (hf : s.fetch = some (.seq s.seqPhase.code)) : exec s.seqPhase.microOp s.dropRequest = .next t :=
    (step_of_fetch_some hf (decode_seq_code s.W s.seqPhase)).symm.trans h
  have houtside (hf : s.fetch = none) : t = s.outside :=
    (Host.Outcome.next.inj ((step_of_fetch_none hf).symm.trans h)).symm
  cases hi : s.inbox with
  | nil => exact .inr (.inr (.inl (hturn (by simp [State.fetch, hi, hb]))))
  | cons r rest =>
    cases r with
    | tick => exact .inr (.inr (.inl (hturn (by simp [State.fetch, hi, hb]))))
    | reset => simp [hi] at hr
    | host a =>
      left
      cases hd : decodeAccess s.W a with
      | error e =>
        cases (step_of_decodeAccess_error hi hd).symm.trans h
        exact ⟨rfl, rfl, rfl, rfl, by simp [hi]⟩
      | ok i =>
        obtain ⟨rid, cap, len, replies, he⟩ := exec_of_decodeAccess_of_busy (s := { s with inbox := rest }) hb hd
        cases ((step_of_decodeAccess_ok hi hd).trans he).symm.trans h
        exact ⟨rfl, rfl, rfl, rfl, by simp [hi]⟩
    | frameTurn =>
      by_cases hp : s.seqPhase = .rid
      · obtain ⟨i, hd, he⟩ := decode_dueFlags s.W s
        have hf : s.fetch = some (.frame s.dueFlags) := by simp [State.fetch, hi, hb, hp]
        exact .inr (.inr (.inr ⟨hp, he ▸ (step_of_fetch_some hf hd).symm.trans h⟩))
      · obtain rfl := houtside (by simp [State.fetch, hi, hp])
        exact .inl (by simp only [State.outside, hi]; exact ⟨rfl, rfl, rfl, rfl, rfl⟩)
    | engine p =>
      obtain rfl := houtside (by simp [State.fetch, hi, hb])
      exact .inl (by simp only [State.outside, hi]; exact ⟨rfl, rfl, rfl, rfl, rfl⟩)
    | txReady ready =>
      obtain rfl := houtside (by simp [State.fetch, hi])
      exact .inl (by simp only [State.outside, hi]; exact ⟨rfl, rfl, rfl, rfl, rfl⟩)
    | payload a b =>
      obtain rfl := houtside (by simp [State.fetch, hi])
      exact .inr (.inl ⟨a, b, by simp only [State.outside, hi]⟩)

/-- A frame operation keeps the surroundings. -/
theorem frameOperation_surroundings {flags : Byte} {s t : State} (h : frameOperation flags s = .next t) :
    t.surroundings = s.surroundings :=
  surroundings_eq_of_next_ite h s.surroundings_emitFrame

/-- R62: while BUSY no race is forgotten. -/
theorem payloadStable_of_step {s t : State} (hb : s.mode = .busy) (hr : Request.reset ∉ s.inbox)
    (h : step s = .next t) (ht : t.payloadStable) : s.payloadStable := by
  obtain hq | ⟨a, b, rfl⟩ | hm | ⟨-, hf⟩ := step_of_busy hb hr h
  · exact hq.stale.symm.trans ht
  · simp only [State.payloadStable, State.placePayload] at ht
    split at ht
    case isFalse => exact ht
    case isTrue =>
      split at ht
      · cases ht
      · exact ht
  · exact (Surroundings.mk.inj (exec_microOp_surroundings hm)).2.2.2.symm.trans ht
  · exact (Surroundings.mk.inj (frameOperation_surroundings hf)).2.2.2.symm.trans ht

/-- While BUSY every step uses up the entry that brought it, and keeps the canonical form of memory. -/
theorem inbox_wf_of_step {s t : State} (hb : s.mode = .busy) (hr : Request.reset ∉ s.inbox)
    (h : step s = .next t) (hwf : s.pmem.wf) : t.inbox = s.inbox.tail ∧ t.pmem.wf := by
  have hkeep (hs : t.surroundings = s.dropRequest.surroundings) : t.inbox = s.inbox.tail ∧ t.pmem.wf := by
    obtain ⟨-, -, hplatform, -⟩ := Surroundings.mk.inj hs
    obtain ⟨hmem, -, -, hinbox⟩ := Platform.mk.inj hplatform
    exact ⟨hinbox, hmem ▸ hwf⟩
  obtain hq | ⟨a, b, rfl⟩ | hm | ⟨-, hf⟩ := step_of_busy hb hr h
  · exact ⟨hq.inbox, hq.pmem ▸ hwf⟩
  · exact ⟨by simp, State.wf_placePayload (s := s.dropRequest) hwf a b⟩
  · exact hkeep (exec_microOp_surroundings hm)
  · exact hkeep (frameOperation_surroundings hf)

/-- R62: a byte placed while BUSY that leaves the payload stable leaves it as it is. -/
theorem State.read_placePayload {s : State} {a k : Nat} {b : Byte} (hb : s.mode = .busy) (hwf : s.pmem.wf)
    (ht : (s.placePayload a b).payloadStable) (hk : k < s.plen) :
    (s.placePayload a b).pmem.read k = s.pmem.read k := by
  unfold State.placePayload
  split
  case isFalse => rfl
  case isTrue hback =>
    by_cases ha : k = a
    · subst ha
      have hsame : s.pmem.read k = b := by
        by_contra hne
        have hrace : s.mode = .busy ∧ k < s.plen ∧ s.pmem.read k ≠ b := ⟨hb, hk, hne⟩
        simp only [State.payloadStable, State.placePayload, if_pos hback, if_pos hrace] at ht
        cases ht
      exact (Memory.read_write_same hwf k b).trans hsame.symm
    · exact Memory.read_write_other s.pmem b ha

theorem State.transfer_placePayload {s : State} {a : Nat} {b : Byte} (hb : s.mode = .busy) (hwf : s.pmem.wf)
    (ht : (s.placePayload a b).payloadStable) : (s.placePayload a b).transfer = s.transfer := by
  have hpayload : (s.placePayload a b).payload = s.payload := by
    rw [State.payload, State.payload, State.placePayload_plen]
    refine List.map_congr_left fun k hk => ?_
    rw [Nat.zero_add]
    exact State.read_placePayload hb hwf ht (List.mem_range.mp hk)
  simp [State.transfer, hpayload]

/-- With the payload stable, every step but a reset emits some beats of the transfer, perhaps none, and no others. -/
theorem State.InTransfer.step_sends {s t : State} (h : s.InTransfer) (hwf : s.pmem.wf)
    (hr : Request.reset ∉ s.inbox) (hstep : step s = .next t) (ht : t.payloadStable) : ∃ new, s.Sends t new := by
  have hs : s.payloadStable := payloadStable_of_step h.busy hr hstep ht
  have hdrop : s.dropRequest.InTransfer := h.congr rfl rfl
  suffices hsends : ∃ new, s.dropRequest.Sends t new from
    hsends.imp fun _ hnew => ⟨hnew.tx, hnew.pending, hnew.goesOn⟩
  obtain hq | ⟨a, b, rfl⟩ | hm | ⟨hp, hf⟩ := step_of_busy h.busy hr hstep
  · exact ⟨[], hdrop.sends_nil hq.transfer hq.place⟩
  · exact ⟨[], hdrop.sends_nil (State.transfer_placePayload h.busy hwf ht) (State.place_placePayload _ a b)⟩
  · by_cases hu : s.dropRequest.Unheld
    · obtain ⟨u, x, hexec, hsend⟩ := hdrop.exec_microOp_sends hs hu
      cases hexec.symm.trans hm
      exact ⟨[x], hsend⟩
    · cases (exec_microOp_of_held hu).symm.trans hm
      exact ⟨[], hdrop.sends_nil rfl rfl⟩
  · cases hf
    split
    · exact ⟨_, hdrop.sends_emitFrame hp hs⟩
    · exact ⟨[], hdrop.sends_nil rfl rfl⟩

/-! Runs under any interleaving. -/

/-- Since its start with `tx0` on TX, and as long as the payload was stable, the block has emitted a beginning of the
beats `F`, and the rest of them is pending. -/
structure State.Emitting (tx0 F : List Beat) (s : State) : Prop where
  memory  : s.pmem.wf
  noReset : Request.reset ∉ s.inbox
  beats   : s.payloadStable → ∃ sent, s.tx = tx0 ++ sent ∧ F = sent ++ s.pending
  goesOn  : s.payloadStable → s.InTransfer ∨ s.mode = .done

theorem State.Emitting.of_step {tx0 F : List Beat} {s t : State} (h : s.Emitting tx0 F) (hb : s.mode = .busy)
    (hstep : step s = .next t) : t.Emitting tx0 F := by
  obtain ⟨hinbox, hwf⟩ := inbox_wf_of_step hb h.noReset hstep h.memory
  have hsends (ht : t.payloadStable) : s.payloadStable ∧ ∃ new, s.Sends t new := by
    have hs : s.payloadStable := payloadStable_of_step hb h.noReset hstep ht
    have hin : s.InTransfer := (h.goesOn hs).resolve_right (by simp [hb])
    exact ⟨hs, hin.step_sends h.memory h.noReset hstep ht⟩
  refine ⟨hwf, hinbox ▸ fun hm => h.noReset (List.mem_of_mem_tail hm), fun ht => ?_, fun ht => ?_⟩
  · obtain ⟨hs, new, hnew⟩ := hsends ht
    obtain ⟨sent, htx, hF⟩ := h.beats hs
    exact ⟨sent ++ new, by rw [hnew.tx, htx, List.append_assoc], by rw [hF, hnew.pending, List.append_assoc]⟩
  · obtain ⟨-, new, hnew⟩ := hsends ht
    exact hnew.goesOn

theorem runSteps_succ_eq_next {k : Nat} {s v : State} (h : runSteps (k + 1) s = .next v) :
    ∃ t, step s = .next t ∧ runSteps k t = .next v := by
  cases hs : step s with
  | next t => exact ⟨t, rfl, (runSteps_succ hs k).symm.trans h⟩
  | fault r => exact nomatch r
  | refused r =>
    have hcore : core.step s = .refused r := hs
    simp only [runSteps, Host.Core.run, hcore] at h
    cases h

/-- By induction on the number of steps: the beats of a transfer do not depend on the interleaving. -/
theorem State.Emitting.of_runSteps {tx0 F : List Beat} {u v : State} {k : Nat} (h : u.Emitting tx0 F)
    (hbusy : ∀ j ≤ k, ∀ x, runSteps j u = .next x → x.mode = .busy) (hrun : runSteps k u = .next v) :
    v.Emitting tx0 F := by
  induction k generalizing u with
  | zero => cases hrun; exact h
  | succ k ih =>
    obtain ⟨t, hstep, hrest⟩ := runSteps_succ_eq_next hrun
    refine ih (h.of_step (hbusy 0 (Nat.zero_le _) u rfl) hstep) (fun j hj x hx => ?_) hrest
    exact hbusy (j + 1) (Nat.succ_le_succ hj) x ((runSteps_succ hstep j).trans hx)

/-- R140: a proper beginning of the beats while BUSY, and all of them at the end. -/
theorem State.Emitting.tx_eq {tx0 F : List Beat} {w : State} (h : w.Emitting tx0 F) (hs : w.payloadStable) :
    (w.mode = .busy → ∃ m < F.length, w.tx = tx0 ++ F.take m) ∧
      (w.mode ≠ .busy → w.mode = .done ∧ w.tx = tx0 ++ F) := by
  obtain ⟨sent, htx, rfl⟩ := h.beats hs
  refine ⟨fun hb => ⟨sent.length, ?_, ?_⟩, fun hb => ⟨?_, ?_⟩⟩
  · have hin : w.InTransfer := (h.goesOn hs).resolve_right (by simp [hb])
    rw [List.length_append]
    exact Nat.lt_add_of_pos_right (List.length_pos_iff.mpr hin.pending_ne_nil)
  · rw [List.take_left, htx]
  · exact (h.goesOn hs).resolve_left fun hin => hb hin.busy
  · rw [State.pending_of_not_busy hb, List.append_nil, htx]

/-! Runs with nothing else from outside. -/

/-- Nothing comes from outside, and nothing holds the sequencer up. -/
structure State.Alone (s : State) : Prop where
  inbox  : s.inbox = []
  ready  : s.txReady = true
  backed : s.payloadBacked
  stable : s.payloadStable

theorem State.Alone.congr {s t : State} (h : s.Alone) (e : t.surroundings = s.surroundings) : t.Alone := by
  obtain ⟨hW, hplen, hplatform, hstale⟩ := Surroundings.mk.inj e
  obtain ⟨-, hback, hready, hinbox⟩ := Platform.mk.inj hplatform
  refine ⟨hinbox.trans h.inbox, hready.trans h.ready, ?_, hstale.trans h.stable⟩
  have hb := h.backed
  simpa only [State.payloadBacked, State.backed, hW, hplen, hback] using hb

/-- R64, R139: every address that a transfer loads from lies in its payload. -/
theorem State.InTransfer.unheld {s : State} (h : s.InTransfer) (ha : s.Alone) : s.Unheld := by
  refine ⟨ha.ready, fun hp => ha.backed _ ?_⟩
  have hfit : s.dueBase + s.dueLen ≤ s.plen := base_add_datalen_le h.cap (h.count ▸ h.index)
  exact (Nat.add_lt_add_left (h.offData hp) _).trans_le hfit

/-- Alone, every step of a transfer emits one beat. -/
theorem State.InTransfer.step_sends_one {s : State} (h : s.InTransfer) (ha : s.Alone) :
    ∃ t x, step s = .next t ∧ s.Sends t [x] ∧ t.Alone := by
  have hfetch : s.fetch = some (.seq s.seqPhase.code) := by simp [State.fetch, ha.inbox, h.busy]
  have hstep := step_of_fetch_some hfetch (decode_seq_code s.W s.seqPhase)
  rw [State.dropRequest_of_nil ha.inbox] at hstep
  obtain ⟨t, x, hexec, hsend⟩ := h.exec_microOp_sends ha.stable (h.unheld ha)
  exact ⟨t, x, hstep.trans hexec, hsend, ha.congr (exec_microOp_surroundings hexec)⟩

/-- Alone, a transfer emits its pending beats one a step, by induction on the number of steps. -/
theorem State.InTransfer.runSteps_sends {s : State} {k : Nat} (h : s.InTransfer) (ha : s.Alone)
    (hk : k ≤ s.pending.length) : ∃ t, runSteps k s = .next t ∧ s.Sends t (s.pending.take k) := by
  induction k generalizing s with
  | zero => exact ⟨s, rfl, by simpa using h.sends_nil rfl rfl⟩
  | succ k ih =>
    obtain ⟨u, x, hstep, hsend, hau⟩ := h.step_sends_one ha
    have hpend : s.pending = x :: u.pending := hsend.pending
    rw [hpend, List.length_cons, Nat.add_le_add_iff_right] at hk
    rw [hpend, List.take_succ_cons]
    obtain rfl | hpos := Nat.eq_zero_or_pos k
    · exact ⟨u, (runSteps_succ hstep 0).trans rfl, hsend⟩
    · have hbusy : u.mode = .busy := by
        by_contra hb
        rw [State.pending_of_not_busy hb] at hk
        exact Nat.not_lt_of_le hk hpos
      obtain ⟨t, hrun, hrest⟩ := ih (hsend.goesOn.resolve_right (by simp [hbusy])) hau hk
      refine ⟨t, (runSteps_succ hstep k).trans hrun, ?_, ?_, hrest.goesOn⟩
      · rw [hrest.tx, hsend.tx, List.append_assoc]; rfl
      · rw [hpend, List.cons_append, ← hrest.pending]

/-- R140: alone, the block is DONE after as many steps as there are beats, and not before. -/
theorem State.InTransfer.runSteps_done {s : State} (h : s.InTransfer) (ha : s.Alone) :
    (∃ t, runSteps s.pending.length s = .next t ∧ t.mode = .done ∧ t.tx = s.tx ++ s.pending) ∧
      ∀ k v, k < s.pending.length → runSteps k s = .next v → v.mode = .busy := by
  refine ⟨?_, fun k v hk hv => ?_⟩
  · obtain ⟨t, hrun, hsend⟩ := h.runSteps_sends ha (Nat.le_refl _)
    have hnone : t.pending = [] := by simpa using hsend.pending
    refine ⟨t, hrun, hsend.goesOn.resolve_left fun hin => hin.pending_ne_nil hnone, ?_⟩
    rw [hsend.tx, List.take_length]
  · obtain ⟨t, hrun, hsend⟩ := h.runSteps_sends ha hk.le
    cases hrun.symm.trans hv
    by_contra hb
    have hlen := congrArg List.length hsend.pending
    rw [State.pending_of_not_busy hb, List.append_nil, List.length_take] at hlen
    omega

/-! CMD.START and the encoder. -/

/-- The state after an accepted CMD.START (R129). -/
def State.started (s : State) : State := s.leaveResult.beginTransfer.respond .ok

/-- R127, R129: CMD.START accepts exactly what the encoder does. -/
theorem exec_cmdStart_of_encode_ok {s : State} {frames : List (List Byte)} (hm : s.mode ≠ .busy)
    (h : encodeFrames (s.pmem.slice 0 s.payloadLen) s.reportId s.chunkCap = .ok frames) :
    exec .cmdStart s = .next s.started := by
  simp only [encodeFrames, Memory.length_slice] at h
  refine (if_neg hm).trans ?_
  split at h
  case isTrue => cases h
  case isFalse hconfig =>
    split at h
    case isTrue => cases h
    case isFalse hcapacity => exact (if_neg hconfig).trans (if_neg hcapacity)

/-- R127, R181, R182: where the encoder fails, CMD.START takes its exception. -/
theorem exec_cmdStart_of_encode_error {s : State} {e : Exc} (hm : s.mode ≠ .busy)
    (h : encodeFrames (s.pmem.slice 0 s.payloadLen) s.reportId s.chunkCap = .error e) :
    exec .cmdStart s = .next ((s.leaveResult.takeException e).respond .ok) := by
  simp only [encodeFrames, Memory.length_slice] at h
  refine (if_neg hm).trans ?_
  split at h
  case isTrue hconfig => cases h; exact if_pos hconfig
  case isFalse hconfig =>
    split at h
    case isTrue hcapacity => cases h; exact (if_neg hconfig).trans (if_pos hcapacity)
    case isFalse => cases h

/-- The beats of the frames of an accepted transfer. -/
theorem length_flatten_markLast {P : List Byte} {rid C : Nat} {frames : List (List Byte)}
    (h : encodeFrames P rid C = .ok frames) :
    (frames.map markLast).flatten.length = P.length + 6 * nframes P.length C := by
  obtain ⟨hC, -, rfl⟩ := encodeFrames_eq_ok h
  have hframe (i : Nat) : (markLast (frameOf (BitVec.ofNat 8 rid) i P C)).length = datalen i P.length C + 6 := by
    rw [frameOf, ← frameBeats, length_frameBeats, length_bodyOf]
  rw [List.length_flatten, List.map_map, List.map_map]
  simp only [Function.comp_def, hframe]
  rw [List.sum_map_add, sum_datalen P.length hC]
  simp [Nat.mul_comm]

section Started

variable {s : State} {frames : List (List Byte)}
  (h : encodeFrames (s.pmem.slice 0 s.payloadLen) s.reportId s.chunkCap = .ok frames)

include h

theorem State.toNat_nfr_started : s.started.nfr.toNat = nframes s.payloadLen s.chunkCap := by
  obtain ⟨-, hN, -⟩ := encodeFrames_eq_ok h
  rw [Memory.length_slice] at hN
  exact (BitVec.toNat_ofNat _ _).trans (Nat.mod_eq_of_lt (hN.trans_lt (by decide)))

theorem State.inTransfer_started : s.started.InTransfer := by
  obtain ⟨hC, -, -⟩ := encodeFrames_eq_ok h
  have hnfr := State.toNat_nfr_started h
  refine ⟨rfl, hC, hnfr, ?_, (fun hd => nomatch hd), (fun hc => nomatch hc), fun _ hp => absurd rfl hp⟩
  rw [hnfr]
  exact one_le_nframes _ _

/-- What is pending after an accepted CMD.START are the frames of the encoder. -/
theorem State.pending_started : s.started.pending = (frames.map markLast).flatten := by
  obtain ⟨-, -, rfl⟩ := encodeFrames_eq_ok h
  have hfrom : s.started.pending = s.started.framesFrom 0 := (State.inTransfer_started h).pending_eq_drop
  rw [hfrom, State.framesFrom, State.toNat_nfr_started h, Nat.sub_zero, ← List.range_eq_range',
    Memory.length_slice, List.map_map]
  rfl

end Started

/-- Settles O47: an accepted CMD.START leaves the beats of the encoder's frames pending, each step takes some of them,
and alone exactly one. -/
theorem transferEmitsTheEncodedFrames : Obligations.TransferEmitsTheEncodedFrames := by
  refine fun s hm => ⟨fun frames h => ?_, fun e h => ?_⟩
  · have hin := State.inTransfer_started h
    have hpend := State.pending_started h
    have hlen : (frames.map markLast).flatten.length = s.payloadLen + 6 * nframes s.payloadLen s.chunkCap := by
      rw [length_flatten_markLast h, Memory.length_slice]
    refine ⟨s.started, exec_cmdStart_of_encode_ok hm h, rfl, rfl, hlen, ?_, fun hinbox hready hback => ?_⟩
    · intro hinv hreset k v w hbusy hrun hstep hstable
      have hstart : s.started.Emitting s.tx (frames.map markLast).flatten :=
        ⟨hinv.memory, hreset, fun _ => ⟨[], (List.append_nil _).symm, hpend.symm⟩, fun _ => .inl hin⟩
      exact ((hstart.of_runSteps hbusy hrun).of_step (hbusy k (Nat.le_refl k) v hrun) hstep).tx_eq hstable
    · have hdone := hin.runSteps_done ⟨hinbox, hready, hback, rfl⟩
      rw [hpend, hlen] at hdone
      exact hdone
  · exact ⟨_, exec_cmdStart_of_encode_error hm h, rfl, rfl, rfl⟩

end Sys2Proof.Machine
end

section
/-! The host operations as they answer: the reads and the status word, the operand writes, the commands, the data-in
register of the engine, and which accesses are refused (spec/42_host_interface.md R160 to R177, spec/10_state.md R32,
R36). -/

namespace Sys2Proof

/-! Which registers are mapped, and what a command write decodes to. -/

/-- R34: the map has a register at every multiple of 4 below 0x2C. -/
theorem Reg.exists_offset_eq {addr : Nat} (h4 : addr % 4 = 0) (h : addr < 0x2C) : ∃ r : Reg, addr = r.offset := by
  have hmapped : ∀ a < 0x2C, a % 4 = 0 → (Reg.ofOffset a).isSome := by decide
  obtain ⟨r, hr⟩ := Option.isSome_iff_exists.mp (hmapped addr h h4)
  exact ⟨r, Reg.ofOffset_eq_some hr⟩

/-- R35, R166: every other data word of a CTRL write is reserved. -/
theorem decodeCommand_of_not_mem {v : Nat} (h : v ∉ [0, 1, 2, 4]) : decodeCommand v = .error .reservedCommand := by
  unfold decodeCommand
  split
  case h_5 => rfl
  all_goals exact absurd (by decide) h

/-- A whole-word CTRL write decodes by its data alone. -/
theorem decode_ctrl_write {W v : Nat} {w : BitVec W} (h : w.toNat = v) :
    decode W (.host ⟨.write, Reg.offset .ctrl, W, w⟩) = decodeCommand v :=
  (decodeAccess_write W .ctrl w).trans (congrArg decodeCommand h)

theorem decodeWrite_crcData_of_le {v : Nat} (h : v ≤ 0xFF) : decodeWrite .crcData v = .ok (.wrCrcData v) :=
  if_pos h

end Sys2Proof

namespace Sys2Proof.Machine

open Sys2Proof

/-! The status word. -/

/-- The layout of R36 as a number: three flags in the low bits, and a code from bit 4 up. -/
theorem toNat_statusLayout : ∀ (code : BitVec 4) (err done busy : Bool),
    ((code ++ (0 : BitVec 1) ++ BitVec.ofBool err ++ BitVec.ofBool done
        ++ BitVec.ofBool busy : BitVec 8).setWidth 32).toNat
      = (if busy then 1 else 0) + (if done then 2 else 0) + (if err then 4 else 0) + 16 * code.toNat := by
  decide

/-- R32, R36: the flags of the status word are tests of the mode. -/
theorem State.toNat_statusWord (s : State) : s.statusWord.toNat =
    (if s.mode = .busy then 1 else 0) + (if s.mode = .done then 2 else 0) + (if s.mode = .error then 4 else 0)
      + 16 * s.errcode.code.toNat := by
  simp only [State.statusWord, toNat_statusLayout, State.flagBusy, State.flagDone, State.flagErr, decide_eq_true_eq]

/-- R31: an error code is held in the mode ERROR alone. -/
theorem State.Inv.errcode_eq_none {s : State} (h : s.Inv) (hm : s.mode ≠ .error) : s.errcode = .none :=
  not_not.mp fun he => hm (h.errcode.mp he)

/-- Settles O21: each read decodes as the register at its offset, and answers `State.readValue` of that register. -/
theorem readsAnswerAndChangeNothing : Obligations.ReadsAnswerAndChangeNothing := by
  refine ⟨fun W w => ?_, fun s => ?_⟩
  · have hdecode (r : Reg) := decodeAccess_read W r w
    exact ⟨hdecode .ctrl, hdecode .status, hdecode .reportId, hdecode .chunkCap, hdecode .payloadLen,
      hdecode .frameCount, hdecode .frameIndex, hdecode .crcData, hdecode .crcValue, hdecode .seqPhase,
      hdecode .seqOff⟩
  · have hread (r : Reg) := exec_decodeRead r s
    have hstatus := hread .status
    rw [State.readValue, State.toNat_statusWord] at hstatus
    exact ⟨hread .ctrl, hread .crcData, hread .reportId, hread .chunkCap, hread .payloadLen, hread .seqOff, hstatus,
      hread .frameCount, hread .frameIndex, hread .crcValue, hread .seqPhase⟩

/-- Settles O22: outside ERROR there is no error code, and in ERROR it is that of one of the two exceptions. -/
theorem statusReadsOneOfFiveValues : Obligations.StatusReadsOneOfFiveValues := by
  refine fun s h => ⟨_, exec_decodeRead .status s, s.toNat_statusWord, ?_⟩
  rw [State.readValue, State.toNat_statusWord]
  cases hm : s.mode with
  | idle | busy | done => simp [h.errcode_eq_none (by simp [hm]), ErrCode.code]
  | error =>
    cases he : s.errcode with
    | none => exact absurd he (h.errcode.mpr hm)
    | raised e => cases e <;> simp [ErrCode.code, Exc.code]

/-! What CMD.START makes of the operand registers. -/

/-- R181: a capacity of 0 or a report id above 0xFF. -/
theorem exec_cmdStart_of_config {s : State} (hm : s.mode ≠ .busy) (h : s.chunkCap < 1 ∨ 0xFF < s.reportId) :
    exec .cmdStart s = .next ((s.leaveResult.takeException .config).respond .ok) :=
  exec_cmdStart_of_encode_error hm (if_pos h)

/-- R182: a valid configuration, and more frames than a transfer may have. -/
theorem exec_cmdStart_of_capacity {s : State} (hm : s.mode ≠ .busy) (hC : 1 ≤ s.chunkCap) (hrid : s.reportId ≤ 0xFF)
    (h : Config.nmax < nframes s.payloadLen s.chunkCap) :
    exec .cmdStart s = .next ((s.leaveResult.takeException .capacity).respond .ok) := by
  refine exec_cmdStart_of_encode_error hm ?_
  rw [encodeFrames, if_neg (by omega), Memory.length_slice, if_pos h]

/-- Settles O23: a write stores its word as it is, and the next CMD.START looks at what is stored. -/
theorem operandWritesStoreWholeWords : Obligations.OperandWritesStoreWholeWords := by
  refine ⟨fun W w => ⟨decodeAccess_write W .reportId w, decodeAccess_write W .chunkCap w,
    decodeAccess_write W .payloadLen w⟩, fun s v => ⟨fun hm hv => ?_, fun hm hv => ?_, fun hm hC hrid hN => ?_,
    rfl, rfl, rfl⟩⟩
  · exact ⟨_, _, rfl, exec_cmdStart_of_config hm (.inr hv), rfl⟩
  · exact ⟨_, _, rfl, exec_cmdStart_of_config hm (.inl (Nat.lt_one_iff.mpr hv)), rfl⟩
  · exact ⟨_, _, rfl, exec_cmdStart_of_capacity hm hC hrid hN, rfl⟩

/-! The commands and the data-in register: refused, or done. -/

theorem exec_wrCrcData_of_refused {s : State} {v : Nat} (h : s.mode = .busy ∨ 0xFF < v) :
    exec (.wrCrcData v) s = refuse s :=
  if_pos h

theorem exec_wrCrcData_of_accepted {s : State} {v : Nat} (hm : s.mode ≠ .busy) (hv : v ≤ 0xFF) :
    exec (.wrCrcData v) s = .next ((s.crcAbsorb (BitVec.ofNat 8 v)).respond .ok) :=
  if_neg (not_or.mpr ⟨hm, Nat.not_lt.mpr hv⟩)

theorem exec_cmdClr_of_not_busy {s : State} (hm : s.mode ≠ .busy) :
    exec .cmdClr s = .next (s.leaveResult.respond .ok) :=
  if_neg hm

theorem exec_cmdCrcClr_of_not_busy {s : State} (hm : s.mode ≠ .busy) :
    exec .cmdCrcClr s = .next (s.crcClear.respond .ok) :=
  if_neg hm

/-- R129, R169, R170: while BUSY every command but NOP is refused. -/
theorem exec_command_of_busy {s : State} {i : Instr} (hi : i ∈ [Instr.cmdStart, .cmdClr, .cmdCrcClr])
    (hb : s.mode = .busy) : exec i s = refuse s := by
  simp only [List.mem_cons, List.not_mem_nil, or_false] at hi
  obtain rfl | rfl | rfl := hi <;> exact if_pos hb

/-- Settles O24: by the data of the CTRL write, and by whether the mode is BUSY. -/
theorem commandsActOrAreRefused : Obligations.CommandsActOrAreRefused :=
  ⟨fun _ _ => ⟨decode_ctrl_write, decode_ctrl_write, decode_ctrl_write⟩, fun _ =>
    ⟨rfl, fun hm => ⟨exec_cmdClr_of_not_busy hm, exec_cmdCrcClr_of_not_busy hm⟩,
      fun hb => ⟨exec_command_of_busy (by decide) hb, exec_command_of_busy (by decide) hb⟩⟩⟩

/-- Settles O25: a word up to 0xFF is one byte, which is absorbed outside BUSY; the rest is refused. -/
theorem checksumDataIsAbsorbedOrRefused : Obligations.ChecksumDataIsAbsorbedOrRefused :=
  ⟨fun W w h => (decodeAccess_write W .crcData w).trans (decodeWrite_crcData_of_le h), fun _ v =>
    ⟨fun hm hv => ⟨BitVec.ofNat 8 v, (BitVec.toNat_ofNat v 8).trans (Nat.mod_eq_of_lt (Nat.lt_succ_of_le hv)),
      exec_wrCrcData_of_accepted hm hv⟩, exec_wrCrcData_of_refused⟩⟩

/-! Which accesses are refused. -/

/-- R161, causes 3 to 7: whether a whole-word write of `v` to a register is refused in the mode `m`. -/
def refusesWrite (m : Mode) (v : Nat) : Reg → Prop
  | .ctrl => v ∉ [0, 1, 2, 4] ∨ v ∈ [1, 2, 4] ∧ m = .busy
  | .crcData => m = .busy ∨ 0xFF < v
  | .reportId | .chunkCap | .payloadLen => False
  | .status | .frameCount | .frameIndex | .crcValue | .seqPhase | .seqOff => True

/-- The seven causes of R161, as the obligation lists them. -/
def State.refuses (s : State) (a : Access) : Prop :=
  (a.addr % 4 ≠ 0 ∨ 0x2C ≤ a.addr) ∨
  a.bits ≠ s.W ∨
  (a.dir = .write ∧ a.addr ∈ [0x04, 0x14, 0x18, 0x20, 0x24, 0x28]) ∨
  (a.dir = .write ∧ a.addr = 0x00 ∧ a.wdata.toNat ∉ [0, 1, 2, 4]) ∨
  (a.dir = .write ∧ a.addr = 0x00 ∧ a.wdata.toNat ∈ [1, 2, 4] ∧ s.mode = .busy) ∨
  (a.dir = .write ∧ a.addr = 0x1C ∧ s.mode = .busy) ∨
  (a.dir = .write ∧ a.addr = 0x1C ∧ 0xFF < a.wdata.toNat)

/-- R55, R161: no whole-word read of a mapped register has a cause. -/
theorem State.not_refuses_read (s : State) (r : Reg) (w : BitVec s.W) :
    ¬ s.refuses ⟨.read, r.offset, s.W, w⟩ := by
  have hmap := r.offset_in_map
  simp [State.refuses, hmap]

/-- A whole-word write to a mapped register has only the causes of its own register. -/
theorem State.refuses_write_iff (s : State) (r : Reg) (w : BitVec s.W) :
    s.refuses ⟨.write, r.offset, s.W, w⟩ ↔ refusesWrite s.mode w.toNat r := by
  cases r <;> simp [State.refuses, refusesWrite, Reg.offset]

/-- An access finds no register, is no whole word, or reads or writes a mapped register whole. -/
theorem access_cases (W : Nat) (a : Access) :
    (a.addr % 4 ≠ 0 ∨ 0x2C ≤ a.addr) ∨ a.bits ≠ W ∨
      ∃ (r : Reg) (w : BitVec W), a = ⟨.read, r.offset, W, w⟩ ∨ a = ⟨.write, r.offset, W, w⟩ := by
  obtain ⟨dir, addr, bits, w⟩ := a
  by_cases hmap : addr % 4 ≠ 0 ∨ 0x2C ≤ addr
  · exact .inl hmap
  by_cases hbits : bits = W
  · subst hbits
    obtain ⟨r, rfl⟩ := Reg.exists_offset_eq (addr := addr) (by omega) (by omega)
    cases dir
    · exact .inr (.inr ⟨r, w, .inl rfl⟩)
    · exact .inr (.inr ⟨r, w, .inr rfl⟩)
  · exact .inr (.inl hbits)

/-- R161, causes 1 and 2. -/
theorem decodeAccess_eq_error {W : Nat} {a : Access} (h : (a.addr % 4 ≠ 0 ∨ 0x2C ≤ a.addr) ∨ a.bits ≠ W) :
    ∃ e, decodeAccess W a = .error e := by
  unfold decodeAccess
  split
  case isFalse => exact ⟨_, rfl⟩
  case isTrue hbits =>
    rw [Reg.ofOffset_eq_none (h.resolve_right (not_not.mpr hbits))]
    exact ⟨_, rfl⟩

section Write

variable {s : State} {r : Reg} {w : BitVec s.W} {rest : List Request}
  (h : s.inbox = .host ⟨.write, r.offset, s.W, w⟩ :: rest)

include h

theorem step_of_decodeWrite_error {e : Reject} (hd : decodeWrite r w.toNat = .error e) :
    step s = .next { s with inbox := rest, replies := s.replies ++ [.err] } :=
  step_of_decodeAccess_error h ((decodeAccess_write s.W r w).trans hd)

theorem step_of_decodeWrite_ok {i : Instr} (hd : decodeWrite r w.toNat = .ok i) :
    step s = exec i { s with inbox := rest } :=
  step_of_decodeAccess_ok h ((decodeAccess_write s.W r w).trans hd)

/-- R161: a refused write answers ERR, whether the decoder refuses it or the operation does. -/
theorem step_of_refusesWrite (hr : refusesWrite s.mode w.toNat r) :
    step s = .next { s with inbox := rest, replies := s.replies ++ [.err] } := by
  cases r
  case ctrl =>
    obtain hreserved | ⟨hv, hb⟩ := hr
    · exact step_of_decodeWrite_error h (decodeCommand_of_not_mem hreserved)
    · obtain ⟨i, hd, hi⟩ : ∃ i, decodeCommand w.toNat = .ok i ∧ i ∈ [Instr.cmdStart, .cmdClr, .cmdCrcClr] := by
        simp only [List.mem_cons, List.not_mem_nil, or_false] at hv
        obtain hv | hv | hv := hv <;> rw [hv] <;> exact ⟨_, rfl, by decide⟩
      exact (step_of_decodeWrite_ok h hd).trans (exec_command_of_busy hi hb)
  case crcData =>
    by_cases hv : 0xFF < w.toNat
    · exact step_of_decodeWrite_error h (decodeWrite_crcData_of_lt hv)
    · exact (step_of_decodeWrite_ok h (decodeWrite_crcData_of_le (Nat.not_lt.mp hv))).trans
        (exec_wrCrcData_of_refused hr)
  case reportId | chunkCap | payloadLen => exact hr.elim
  all_goals exact step_of_decodeWrite_error h (decodeWrite_readOnly w.toNat (by decide))

end Write

/-- A next state with one answer more than `s`, and that is not ERR. -/
def Accepted (s : State) (o : Host.Outcome State Fault Refusal) : Prop :=
  ∃ t r, o = .next t ∧ t.replies = s.replies ++ [r] ∧ r ≠ .err

theorem accepted_respond_ok {s t : State} (h : t.replies = s.replies) : Accepted s (.next (t.respond .ok)) :=
  ⟨_, .ok, rfl, by simp [h], by decide⟩

/-- R129: outside BUSY a CMD.START is answered OK, whether the encoder accepts the transfer or not. -/
theorem accepted_cmdStart {s : State} (hm : s.mode ≠ .busy) : Accepted s (exec .cmdStart s) := by
  cases h : encodeFrames (s.pmem.slice 0 s.payloadLen) s.reportId s.chunkCap with
  | ok frames => exact exec_cmdStart_of_encode_ok hm h ▸ accepted_respond_ok rfl
  | error e => exact exec_cmdStart_of_encode_error hm h ▸ accepted_respond_ok rfl

theorem accepted_read (r : Reg) (s : State) : Accepted s (exec (decodeRead r) s) :=
  ⟨_, _, exec_decodeRead r s, rfl, nofun⟩

/-- A write that no cause refuses decodes, and is answered OK. -/
theorem decodeWrite_of_not_refusesWrite {s : State} {r : Reg} {v : Nat} (h : ¬ refusesWrite s.mode v r) :
    ∃ i, decodeWrite r v = .ok i ∧ Accepted s (exec i s) := by
  cases r
  case ctrl =>
    obtain ⟨hv, hbusy⟩ := not_or.mp h
    have hm := not_and.mp hbusy
    simp only [not_not, List.mem_cons, List.not_mem_nil, or_false] at hv
    obtain rfl | rfl | rfl | rfl := hv
    · exact ⟨_, rfl, accepted_respond_ok rfl⟩
    · exact ⟨_, rfl, accepted_cmdStart (hm (by decide))⟩
    · exact ⟨_, rfl, exec_cmdClr_of_not_busy (hm (by decide)) ▸ accepted_respond_ok rfl⟩
    · exact ⟨_, rfl, exec_cmdCrcClr_of_not_busy (hm (by decide)) ▸ accepted_respond_ok rfl⟩
  case crcData =>
    obtain ⟨hm, hv⟩ := not_or.mp h
    have hv := Nat.not_lt.mp hv
    exact ⟨_, decodeWrite_crcData_of_le hv, exec_wrCrcData_of_accepted hm hv ▸ accepted_respond_ok rfl⟩
  case reportId | chunkCap | payloadLen => exact ⟨_, rfl, accepted_respond_ok rfl⟩
  all_goals exact absurd trivial h

theorem step_of_refuses {s : State} {a : Access} {rest : List Request} (h : s.inbox = .host a :: rest)
    (ha : s.refuses a) : step s = .next { s with inbox := rest, replies := s.replies ++ [.err] } := by
  obtain hmap | hbits | ⟨r, w, rfl | rfl⟩ := access_cases s.W a
  · obtain ⟨e, he⟩ := decodeAccess_eq_error (.inl hmap)
    exact step_of_decodeAccess_error h he
  · obtain ⟨e, he⟩ := decodeAccess_eq_error (.inr hbits)
    exact step_of_decodeAccess_error h he
  · exact absurd ha (s.not_refuses_read r w)
  · exact step_of_refusesWrite h ((s.refuses_write_iff r w).mp ha)

theorem step_of_not_refuses {s : State} {a : Access} {rest : List Request} (h : s.inbox = .host a :: rest)
    (ha : ¬ s.refuses a) : Accepted s (step s) := by
  obtain hmap | hbits | ⟨r, w, rfl | rfl⟩ := access_cases s.W a
  · exact absurd (.inl hmap) ha
  · exact absurd (.inr (.inl hbits)) ha
  · rw [step_of_decodeAccess_ok h (decodeAccess_read s.W r w)]
    exact accepted_read r { s with inbox := rest }
  · obtain ⟨i, hd, hi⟩ := decodeWrite_of_not_refusesWrite (s := { s with inbox := rest })
      ((s.refuses_write_iff r w).not.mp ha)
    rw [step_of_decodeWrite_ok h hd]
    exact hi

/-- Settles O26: an access without a register or that is no whole word is refused by the decoder, a read is answered,
and a write has only the causes of its register. -/
theorem accessesAreRefusedForSevenCauses : Obligations.AccessesAreRefusedForSevenCauses :=
  fun _ _ _ h => ⟨step_of_refuses h, step_of_not_refuses h⟩

end Sys2Proof.Machine
end

section
/-! The synchronous exceptions: the ways a CMD.START ends, and that no other operation sets an error code
(spec/60_exceptions.md R180 to R187, R196). -/

namespace Sys2Proof.Machine

open Sys2Proof

/-! The ways a CMD.START ends. -/

/-- R129: a valid configuration of no more frames than a transfer may have. -/
theorem exec_cmdStart_of_accepted {s : State} (hm : s.mode ≠ .busy) (hC : 1 ≤ s.chunkCap) (hrid : s.reportId ≤ 0xFF)
    (hN : nframes s.payloadLen s.chunkCap ≤ Config.nmax) : exec .cmdStart s = .next s.started :=
  have hconfig : ¬ (s.chunkCap < 1 ∨ 0xFF < s.reportId) := by omega
  (if_neg hm).trans ((if_neg hconfig).trans (if_neg (Nat.not_lt.mpr hN)))

/-- A CMD.START is refused while BUSY; otherwise it takes an exception, or begins a transfer that the encoder accepts
(R129, R196). -/
theorem exec_cmdStart_cases {s t : State} (h : exec .cmdStart s = .next t) :
    (s.mode = .busy ∧ t = s.respond .err) ∨
    (s.mode ≠ .busy ∧ ∃ e, t = (s.leaveResult.takeException e).respond .ok) ∨
    (s.mode ≠ .busy ∧ 1 ≤ s.chunkCap ∧ s.reportId ≤ 0xFF ∧ nframes s.payloadLen s.chunkCap ≤ Config.nmax ∧
      t = s.started) := by
  by_cases hb : s.mode = .busy
  · cases (exec_command_of_busy (by decide) hb).symm.trans h
    exact .inl ⟨hb, rfl⟩
  by_cases hconfig : s.chunkCap < 1 ∨ 0xFF < s.reportId
  · cases (exec_cmdStart_of_config hb hconfig).symm.trans h
    exact .inr (.inl ⟨hb, .config, rfl⟩)
  obtain ⟨hC, hrid⟩ : 1 ≤ s.chunkCap ∧ s.reportId ≤ 0xFF := by omega
  by_cases hcapacity : Config.nmax < nframes s.payloadLen s.chunkCap
  · cases (exec_cmdStart_of_capacity hb hC hrid hcapacity).symm.trans h
    exact .inr (.inl ⟨hb, .capacity, rfl⟩)
  · have hN := Nat.not_lt.mp hcapacity
    cases (exec_cmdStart_of_accepted hb hC hrid hN).symm.trans h
    exact .inr (.inr ⟨hb, hC, hrid, hN, rfl⟩)

/-- Settles O28: a transfer has too many frames exactly when its payload is longer than 65536 full frames; with that,
each clause is one of the ways a CMD.START ends. -/
theorem startTakesTheExceptions : Obligations.StartTakesTheExceptions := by
  intro s
  have hframes (hC : 1 ≤ s.chunkCap) : 65536 < nframes s.payloadLen s.chunkCap ↔ 65536 * s.chunkCap < s.payloadLen :=
    lt_nframes_iff hC (by decide)
  refine ⟨hframes, fun hW hlen hmany => ?_, fun hm hC hrid hN => ?_, exec_command_of_busy (by decide),
    fun hm hconfig => ?_, fun hm hC hrid hmany => ?_⟩
  · rw [hW] at hlen
    omega
  · exact ⟨_, exec_cmdStart_of_accepted hm hC hrid hN, rfl, rfl⟩
  · exact exec_cmdStart_of_config hm (hconfig.imp_left Nat.lt_one_iff.mpr)
  · exact exec_cmdStart_of_capacity hm hC hrid ((hframes hC).mpr hmany)

/-- Settles O29: `exec_cmdStart_cases`, with what each of the three end states holds. -/
theorem startEndsInOneOfThreeWays : Obligations.StartEndsInOneOfThreeWays := by
  intro s t h
  obtain ⟨hb, rfl⟩ | ⟨hm, e, rfl⟩ | ⟨hm, hC, hrid, hN, rfl⟩ := exec_cmdStart_cases h
  · exact ⟨rfl, .inr (.inr ⟨hb, rfl⟩)⟩
  · exact ⟨rfl, .inr (.inl ⟨hm, rfl, nofun, rfl⟩)⟩
  · exact ⟨rfl, .inl ⟨hm, rfl, rfl, rfl, hC, hrid, hN⟩⟩

/-! The error code in the other operations. -/

@[simp] theorem State.emitFrame_errcode (s : State) : s.emitFrame.errcode = s.errcode := by
  rw [State.emitFrame, State.endFrame_errcode, State.readRun_state]

/-- An operation with a condition keeps the error code if both its cases do. -/
theorem errcode_eq_of_ite {c : Prop} [Decidable c] {s t u v : State}
    (h : (if c then .next u else .next v : Host.Outcome State Fault Refusal) = .next t)
    (hu : u.errcode = s.errcode) (hv : v.errcode = s.errcode) : t.errcode = s.errcode := by
  split at h
  · cases h; exact hu
  · cases h; exact hv

/-- An operation that waits until it is enabled keeps the error code if its enabled case does. -/
theorem errcode_eq_of_next_ite {c : Prop} [Decidable c] {s t u : State}
    (h : (.next (if c then u else s) : Host.Outcome State Fault Refusal) = .next t) (hu : u.errcode = s.errcode) :
    t.errcode = s.errcode :=
  errcode_eq_of_ite ((apply_ite Host.Outcome.next c u s).symm.trans h) hu rfl

/-- R180, R188: the error code is written by CMD.START and CMD.CLR alone. -/
theorem exec_errcode {i : Instr} {s t : State} (hstart : i ≠ .cmdStart) (hclr : i ≠ .cmdClr)
    (h : exec i s = .next t) : t.errcode = s.errcode := by
  cases i
  case cmdStart => exact absurd rfl hstart
  case cmdClr => exact absurd rfl hclr
  case cmdCrcClr | wrCrcData => exact errcode_eq_of_ite h rfl rfl
  case frameFirst | frameMiddle | frameLast => exact errcode_eq_of_next_ite h s.emitFrame_errcode
  case emitRid | emitFlags | emitReml | emitRemh | emitLen => exact errcode_eq_of_next_ite h rfl
  case emitData => exact errcode_eq_of_next_ite h (s.afterRead_errcode s.dueAddr)
  case emitCrc => exact errcode_eq_of_next_ite h (State.endFrame_errcode (s.txEmit s.crc true))
  all_goals cases h; rfl

/-- R169: a CMD.CLR is refused, or leaves no error code. -/
theorem exec_cmdClr_errcode {s t : State} (h : exec .cmdClr s = .next t) :
    t.errcode = s.errcode ∨ t.errcode = .none := by
  by_cases hb : s.mode = .busy
  · cases (exec_command_of_busy (by decide) hb).symm.trans h
    exact .inl rfl
  · cases (exec_cmdClr_of_not_busy hb).symm.trans h
    exact .inr rfl

/-- Settles O30: a CMD.START that neither is refused nor begins a transfer takes an exception, which is one of two; a
CMD.CLR sets no error code, and every other operation keeps it. -/
theorem onlyStartRaisesExceptions : Obligations.OnlyStartRaisesExceptions := by
  refine ⟨rfl, rfl, fun i s t h hne => ?_⟩
  by_cases hstart : i = .cmdStart
  · subst hstart
    obtain ⟨-, rfl⟩ | ⟨hm, e, rfl⟩ | ⟨-, -, -, -, rfl⟩ := exec_cmdStart_cases h
    · exact .inl rfl
    · refine .inr ⟨rfl, hm, rfl, ?_⟩
      cases e with
      | config => exact .inl rfl
      | capacity => exact .inr rfl
    · exact absurd rfl hne
  by_cases hclr : i = .cmdClr
  · subst hclr
    exact .inl ((exec_cmdClr_errcode h).resolve_right hne)
  · exact .inl (exec_errcode hstart hclr h)

end Sys2Proof.Machine
end

section
/-! Reset, and the steps of a block that is not BUSY: such a block emits nothing, and a CMD.START alone makes it BUSY
(spec/70_reset_and_hazards.md R200, spec/20_memory.md R57, R58). -/

namespace Sys2Proof

/-! Which word asks for a CMD.START. -/

/-- R82, R88: the decoder reads a CMD.START out of its own encoding alone, at every width. -/
theorem eq_of_decode_cmdStart {W : Nat} {w : OpWord} (h : decode W w = .ok .cmdStart) :
    w = .host (writeAccess W .ctrl 1) := by
  cases w with
  | host a =>
    obtain ⟨-, ⟨r, -, -, hread⟩ | hencode⟩ := decodeAccess_eq_ok h
    · cases r <;> cases hread
    · exact hencode.symm
  | frame flags =>
    simp only [decode, decodeFlags] at h
    split at h <;> cases h
  | seq code =>
    simp only [decode, decodePhase] at h
    split at h <;> cases h
  | engine pattern =>
    simp only [decode, decodeEngine] at h
    split at h <;> cases h

end Sys2Proof

namespace Sys2Proof.Machine

open Sys2Proof

/-! What a step can do. -/

/-- A step runs the operation of the word that is due, refuses a word that names none, or is an event from outside. -/
theorem step_cases {s t : State} (h : step s = .next t) :
    t = s.outside ∨ (∃ w, t = s.dropRequest.rejectWord w) ∨
      ∃ w i, s.fetch = some w ∧ decode s.W w = .ok i ∧ exec i s.dropRequest = .next t := by
  cases hf : s.fetch with
  | none => exact .inl (Host.Outcome.next.inj ((step_of_fetch_none hf).symm.trans h)).symm
  | some w =>
    cases hd : decode s.W w with
    | ok i => exact .inr (.inr ⟨w, i, rfl, hd, (step_of_fetch_some hf hd).symm.trans h⟩)
    | error e =>
      simp only [step, hf, hd] at h
      exact .inr (.inl ⟨w, (Host.Outcome.next.inj h).symm⟩)

/-- A host access that is due is the next entry of the inbox. -/
theorem State.inbox_of_fetch_host {s : State} {a : Access} (h : s.fetch = some (.host a)) :
    ∃ rest, s.inbox = .host a :: rest := by
  unfold State.fetch at h
  split at h
  case h_4 b rest hi => cases h; exact ⟨rest, hi⟩
  case h_1 | h_2 | h_3 | h_5 => split at h <;> cases h
  all_goals cases h

@[simp] theorem State.rejectWord_tx (s : State) (w : OpWord) : (s.rejectWord w).tx = s.tx := by
  cases w <;> rfl

@[simp] theorem State.rejectWord_mode (s : State) (w : OpWord) : (s.rejectWord w).mode = s.mode := by
  cases w <;> rfl

/-- R57: no event from outside emits a beat. -/
@[simp] theorem State.outside_tx (s : State) : s.outside.tx = s.tx := by
  unfold State.outside
  split <;> simp

/-- The only event from outside that changes the mode is a reset, which makes the block IDLE. -/
theorem State.outside_mode (s : State) : s.outside.mode = s.mode ∨ s.outside.mode = .idle := by
  unfold State.outside
  split
  case h_1 => exact .inr rfl
  all_goals exact .inl (by simp)

/-! The operations of a block that is not BUSY. -/

/-- R130: outside BUSY no micro-operation is enabled, and no whole frame. -/
theorem exec_sequencer_of_not_busy {i : Instr} {s : State} (hi : i ∈ frameOps ++ seqOps) (hm : s.mode ≠ .busy) :
    exec i s = .next s := by
  cases i
  case frameFirst | frameMiddle | frameLast | emitData =>
    exact congrArg Host.Outcome.next (if_neg fun he => hm he.1.1)
  case emitRid | emitFlags | emitReml | emitRemh | emitLen | emitCrc =>
    exact congrArg Host.Outcome.next (if_neg fun he => hm he.1)
  all_goals simp [frameOps, seqOps] at hi

/-- Outside BUSY an operation other than CMD.START emits nothing and leaves the block not BUSY: those of the sequencer
wait, CMD.CLR makes it IDLE, and the rest keep the mode. -/
theorem exec_of_not_busy {i : Instr} {s t : State} (hm : s.mode ≠ .busy) (hi : i ≠ .cmdStart)
    (h : exec i s = .next t) : t.tx = s.tx ∧ t.mode ≠ .busy := by
  by_cases hseq : i ∈ frameOps ++ seqOps
  · cases (exec_sequencer_of_not_busy hseq hm).symm.trans h
    exact ⟨rfl, hm⟩
  cases i
  case cmdStart => exact absurd rfl hi
  case cmdClr =>
    cases (exec_cmdClr_of_not_busy hm).symm.trans h
    exact ⟨rfl, nofun⟩
  case cmdCrcClr =>
    cases (exec_cmdCrcClr_of_not_busy hm).symm.trans h
    exact ⟨rfl, hm⟩
  case wrCrcData v =>
    by_cases hv : v ≤ 0xFF
    · cases (exec_wrCrcData_of_accepted hm hv).symm.trans h
      exact ⟨rfl, hm⟩
    · cases (exec_wrCrcData_of_refused (.inr (Nat.not_le.mp hv))).symm.trans h
      exact ⟨rfl, hm⟩
  case frameFirst | frameMiddle | frameLast | emitRid | emitFlags | emitReml | emitRemh | emitLen | emitData | emitCrc =>
    exact absurd (by decide) hseq
  all_goals cases h; exact ⟨rfl, hm⟩

/-- R57, R200: a block that is not BUSY emits nothing in a step, and it becomes BUSY only where the next entry of the
inbox is a CMD.START. -/
theorem step_of_not_busy {s t : State} (hm : s.mode ≠ .busy) (h : step s = .next t) :
    t.tx = s.tx ∧ (t.mode = .busy → ∃ rest, s.inbox = .host (writeAccess s.W .ctrl 1) :: rest) := by
  obtain rfl | ⟨w, rfl⟩ | ⟨w, i, hf, hd, he⟩ := step_cases h
  · refine ⟨s.outside_tx, fun hb => ?_⟩
    obtain hsame | hidle := s.outside_mode
    · exact absurd (hsame.symm.trans hb) hm
    · cases hidle.symm.trans hb
  · exact ⟨s.dropRequest.rejectWord_tx w, fun hb => absurd ((s.dropRequest.rejectWord_mode w).symm.trans hb) hm⟩
  · by_cases hi : i = .cmdStart
    · subst hi
      obtain ⟨htx, -⟩ := startEndsInOneOfThreeWays _ _ he
      exact ⟨htx, fun _ => State.inbox_of_fetch_host (eq_of_decode_cmdStart hd ▸ hf)⟩
    · obtain ⟨htx, hidle⟩ := exec_of_not_busy (s := s.dropRequest) hm hi he
      exact ⟨htx, fun hb => absurd hb hidle⟩

/-! The state that a reset leaves. -/

theorem State.readValue_resetBlock (s : State) (r : Reg) : s.resetBlock.readValue r = 0 :=
  have hreset : s.resetBlock.readValue r = State.reset.readValue r := by cases r <;> rfl
  hreset.trans (State.readValue_reset r)

/-- R200: after a reset every register reads 0. -/
theorem exec_decodeRead_resetBlock (s : State) (r : Reg) : exec (decodeRead r) s.resetBlock =
    .next { s.resetBlock with replies := s.resetBlock.replies ++ [.data 0] } := by
  rw [exec_decodeRead, State.readValue_resetBlock]

/-- Settles O43: the block that a reset leaves is IDLE, so no micro-operation is enabled in it; and what a block that is
not BUSY does in a step is `step_of_not_busy`. -/
theorem resetSetsEveryRegister : Obligations.ResetSetsEveryRegister := by
  refine ⟨fun s rest h => ⟨_, step_of_reset h, ?_, ?_, ⟨rfl, rfl⟩, exec_decodeRead_resetBlock _, fun i hi => ?_⟩,
    fun _ _ => step_of_not_busy⟩
  · exact ⟨rfl, rfl, rfl, rfl, rfl, rfl, rfl⟩
  · exact ⟨rfl, rfl, rfl, rfl, rfl, rfl⟩
  · exact exec_sequencer_of_not_busy (List.mem_append_right frameOps hi) nofun

end Sys2Proof.Machine
end

section
/-! What a step can do, said once for every state: the sequencer's two ways to go on, what a host access can be answered,
and the events from outside (spec/20_memory.md R58, spec/41_encoder.md R130 to R137, spec/42_host_interface.md R160 to
R177). With it the rules about every step are settled: which of them changes the mode, the TX stream, the latched copies,
the operand registers, the checksum register, the answers, and the platform's side. -/

namespace Sys2Proof.Machine

open Sys2Proof

/-! The micro-operations in every state. -/

/-- `s` after `n` racing reads in all. -/
def State.withRaces (s : State) (n : Nat) : State := { s with raceCount := n }

theorem State.afterRead_of_raced {s : State} {a : Nat} (h : s.raced a) :
    s.afterRead a = s.withRaces (s.raceCount + 1) :=
  if_pos h

theorem State.afterRead_eq_withRaces (s : State) (a : Nat) : ∃ n, s.afterRead a = s.withRaces n := by
  by_cases h : s.raced a
  · exact ⟨_, State.afterRead_of_raced h⟩
  · exact ⟨s.raceCount, State.afterRead_of_not_raced h⟩

/-- The state after the micro-operation of a phase, where it is enabled (R131 to R137). -/
def State.afterMicroOp (s : State) : Phase → State
  | .rid => ((s.txEmit s.rid false).crcClear).toPhase .flags
  | .flags => (s.emitBody s.dueFlags).toPhase .reml
  | .reml => (s.emitBody (lowByte s.dueRemaining)).toPhase .remh
  | .remh => (s.emitBody (highByte s.dueRemaining)).toPhase .len
  | .len => (s.emitBody (lowByte s.dueLen)).goto s.seqIdx (if s.dueLen = 0 then .crc else .data) 0
  | .data => ((s.afterRead s.dueAddr).emitBody (s.payloadByte s.dueAddr)).goto s.seqIdx
      (if s.seqOff + 1 = s.dueLen then .crc else .data) (s.seqOff + 1)
  | .crc => (s.txEmit s.crc true).endFrame

/-- The micro-operation of the phase is enabled (R130), and a load has a backed address (R64). -/
abbrev State.canEmit (s : State) (p : Phase) : Prop := s.enabled p ∧ (p = .data → s.backed s.dueAddr)

section Enabled

variable {s : State} {p : Phase} {flags : Byte}

theorem State.canEmit.busy (h : s.canEmit p) : s.mode = .busy := h.1.1

theorem State.canEmit.ready (h : s.canEmit p) : s.txReady = true := h.1.2.2

theorem State.canEmit.backed (h : s.canEmit p) : p = .data → s.backed s.dueAddr := h.2

theorem State.frameEnabled.busy (h : s.frameEnabled flags) : s.mode = .busy := h.1.1

theorem State.frameEnabled.rid (h : s.frameEnabled flags) : s.seqPhase = .rid := h.1.2.1

theorem State.frameEnabled.ready (h : s.frameEnabled flags) : s.txReady = true := h.1.2.2

end Enabled

theorem exec_microOp (p : Phase) (s : State) :
    exec p.microOp s = .next (if s.canEmit p then s.afterMicroOp p else s) := by
  cases p
  case data => exact congrArg Host.Outcome.next (if_congr (and_congr_right' (imp_iff_right rfl).symm) rfl rfl)
  all_goals exact congrArg Host.Outcome.next (if_congr (and_iff_left nofun).symm rfl rfl)

theorem exec_microOp_of_canEmit {p : Phase} {s : State} (h : s.canEmit p) :
    exec p.microOp s = .next (s.afterMicroOp p) := by
  rw [exec_microOp, if_pos h]

theorem exec_microOp_of_not_canEmit {p : Phase} {s : State} (h : ¬ s.canEmit p) : exec p.microOp s = .next s := by
  rw [exec_microOp, if_neg h]

/-- The end of a frame keeps the mode, or ends the transfer with its last frame (R137). -/
theorem State.endFrame_mode (s : State) :
    s.endFrame.mode = s.mode ∨ s.seqIdx.toNat + 1 = s.nfr.toNat ∧ s.endFrame.mode = .done := by
  by_cases hlast : s.seqIdx.toNat + 1 = s.nfr.toNat
  · exact .inr ⟨hlast, by rw [State.endFrame_last hlast]⟩
  · exact .inl (by rw [State.endFrame_next hlast])

theorem State.afterMicroOp_mode (s : State) (p : Phase) :
    (s.afterMicroOp p).mode = s.mode ∨
      p = .crc ∧ s.seqIdx.toNat + 1 = s.nfr.toNat ∧ (s.afterMicroOp p).mode = .done := by
  cases p
  case crc => exact (s.txEmit s.crc true).endFrame_mode.imp_right (⟨rfl, ·⟩)
  case data => exact .inl (s.afterRead_mode s.dueAddr)
  all_goals exact .inl rfl

theorem State.emitFrame_mode (s : State) :
    s.emitFrame.mode = s.mode ∨ s.seqIdx.toNat + 1 = s.nfr.toNat ∧ s.emitFrame.mode = .done := by
  rw [State.emitFrame, State.readRun_state]
  exact State.endFrame_mode _

/-- R56: a micro-operation emits one beat, and it is the last of its frame in the phase CRC alone. -/
theorem State.afterMicroOp_tx (s : State) (p : Phase) :
    ∃ b, (s.afterMicroOp p).tx = s.tx ++ [⟨b, decide (p = .crc)⟩] := by
  cases p
  case crc => exact ⟨s.crc, (s.txEmit s.crc true).endFrame_tx⟩
  case data => exact ⟨s.payloadByte s.dueAddr, congrArg (· ++ _) (s.afterRead_tx s.dueAddr)⟩
  all_goals exact ⟨_, rfl⟩

/-- The body of the frame that a frame operation emits (R125), races included. -/
def State.frameBody (s : State) : List Byte :=
  bodyBytes s.dueFlags s.dueRemaining (s.readRun s.dueBase s.dueLen).1

theorem State.emitFrame_tx (s : State) : s.emitFrame.tx = s.tx ++ frameBeats s.rid s.frameBody := by
  rw [State.emitFrame, State.endFrame_tx]
  rfl

/-! What the sequencer leaves unchanged. -/

/-- `s` with the fields that the sequencer writes taken from `t`. -/
def State.withSequencerOf (s t : State) : State :=
  { s with
    seqIdx := t.seqIdx, seqPhase := t.seqPhase, seqOff := t.seqOff, mode := t.mode, crc := t.crc, tx := t.tx
    raceCount := t.raceCount }

theorem State.endFrame_frame (s : State) : s.endFrame = s.withSequencerOf s.endFrame := by
  unfold State.endFrame
  split <;> rfl

theorem State.afterRead_frame (s : State) (a : Nat) : s.afterRead a = s.withSequencerOf (s.afterRead a) := by
  unfold State.afterRead
  split <;> rfl

/-- A micro-operation writes the position, the mode, the checksum register, the TX stream and the count of races. -/
theorem State.afterMicroOp_frame (s : State) (p : Phase) : s.afterMicroOp p = s.withSequencerOf (s.afterMicroOp p) := by
  cases p
  case crc => exact (s.txEmit s.crc true).endFrame_frame
  case data =>
    rw [State.afterMicroOp, State.afterRead_frame]
    rfl
  all_goals rfl

/-- A frame operation writes what a micro-operation does. -/
theorem State.emitFrame_frame (s : State) : s.emitFrame = s.withSequencerOf s.emitFrame := by
  rw [State.emitFrame, State.endFrame_frame, State.readRun_state]
  rfl

/-! What a host access is answered. -/

/-- The states in which a host access `a` can leave the block: `s` is the state less the access. -/
inductive State.Answers (s : State) (a : Access) : State → Prop
  /-- R165, R172 to R177. -/
  | read (v : Nat) (dir : a.dir = .read) : State.Answers s a (s.respond (.data v))
  /-- R161. -/
  | refused : State.Answers s a (s.respond .err)
  /-- R167. -/
  | nop (access : a = writeAccess s.W .ctrl 0) : State.Answers s a (s.respond .ok)
  /-- R162. -/
  | reportId (v : Nat) (bits : v < 2 ^ s.W) (access : a = writeAccess s.W .reportId v) :
      State.Answers s a ({ s with reportId := v }.respond .ok)
  /-- R163. -/
  | chunkCap (v : Nat) (bits : v < 2 ^ s.W) (access : a = writeAccess s.W .chunkCap v) :
      State.Answers s a ({ s with chunkCap := v }.respond .ok)
  /-- R164. -/
  | payloadLen (v : Nat) (bits : v < 2 ^ s.W) (access : a = writeAccess s.W .payloadLen v) :
      State.Answers s a ({ s with payloadLen := v }.respond .ok)
  /-- R181, R182, R186. -/
  | raise (e : Exc) (rest : s.mode ≠ .busy) (access : a = writeAccess s.W .ctrl 1) :
      State.Answers s a ((s.leaveResult.takeException e).respond .ok)
  /-- R129. -/
  | start (rest : s.mode ≠ .busy) (access : a = writeAccess s.W .ctrl 1) (cap : 1 ≤ s.chunkCap)
      (frames : nframes s.payloadLen s.chunkCap ≤ Config.nmax) : State.Answers s a s.started
  /-- R169. -/
  | clr (rest : s.mode ≠ .busy) (access : a = writeAccess s.W .ctrl 2) :
      State.Answers s a (s.leaveResult.respond .ok)
  /-- R170. -/
  | crcClr (rest : s.mode ≠ .busy) (access : a = writeAccess s.W .ctrl 4) :
      State.Answers s a (s.crcClear.respond .ok)
  /-- R171. -/
  | crcData (v : Nat) (rest : s.mode ≠ .busy) (access : a = writeAccess s.W .crcData v) :
      State.Answers s a ((s.crcAbsorb (BitVec.ofNat 8 v)).respond .ok)

theorem State.Answers.of_cmdStart {s t : State} {a : Access} (ha : a = writeAccess s.W .ctrl 1)
    (h : exec .cmdStart s = .next t) : s.Answers a t := by
  obtain ⟨-, rfl⟩ | ⟨hm, e, rfl⟩ | ⟨hm, hC, -, hN, rfl⟩ := exec_cmdStart_cases h
  · exact .refused
  · exact .raise e hm ha
  · exact .start hm ha hC hN

/-- The operation of a write access that decodes ends in one of these states. -/
theorem State.Answers.of_write {s t : State} {a : Access} {i : Instr} (hw : i ∈ writeOps a.wdata.toNat)
    (ha : encode s.W i = .host a) (hbits : a.wdata.toNat < 2 ^ s.W) (h : exec i s = .next t) : s.Answers a t := by
  have access {r : Reg} {v : Nat} (e : OpWord.host (writeAccess s.W r v) = .host a) : a = writeAccess s.W r v :=
    (OpWord.host.inj e).symm
  simp only [writeOps, List.mem_cons, List.not_mem_nil, or_false] at hw
  obtain rfl | rfl | rfl | rfl | rfl | rfl | rfl | rfl := hw
  · cases h; exact .nop (access ha)
  · exact .of_cmdStart (access ha) h
  · by_cases hb : s.mode = .busy
    · cases (exec_command_of_busy (by decide) hb).symm.trans h; exact .refused
    · cases (exec_cmdClr_of_not_busy hb).symm.trans h; exact .clr hb (access ha)
  · by_cases hb : s.mode = .busy
    · cases (exec_command_of_busy (by decide) hb).symm.trans h; exact .refused
    · cases (exec_cmdCrcClr_of_not_busy hb).symm.trans h; exact .crcClr hb (access ha)
  · cases h; exact .reportId _ hbits (access ha)
  · cases h; exact .chunkCap _ hbits (access ha)
  · cases h; exact .payloadLen _ hbits (access ha)
  · by_cases hr : s.mode = .busy ∨ 0xFF < a.wdata.toNat
    · cases (exec_wrCrcData_of_refused hr).symm.trans h; exact .refused
    · obtain ⟨hb, hv⟩ := not_or.mp hr
      cases (exec_wrCrcData_of_accepted hb (Nat.not_lt.mp hv)).symm.trans h
      exact .crcData _ hb (access ha)

/-- Whatever a host access decodes to, the operation ends in one of these states. -/
theorem State.Answers.of_decodeAccess {s t : State} {a : Access} {i : Instr} (hd : decodeAccess s.W a = .ok i)
    (h : exec i s = .next t) : s.Answers a t := by
  obtain ⟨hbits, ⟨r, hdir, -, rfl⟩ | hencode⟩ := decodeAccess_eq_ok hd
  · cases (exec_decodeRead r s).symm.trans h
    exact .read _ hdir
  · obtain ⟨r, rfl⟩ | hw := decodeAccess_ok_cases hd
    · cases (exec_decodeRead r s).symm.trans h
      exact .read _ (by cases r <;> cases hencode <;> rfl)
    · exact .of_write hw hencode (hbits ▸ a.wdata.isLt) h

/-! What a step can do. -/

/-- A turn of the sequencer: its entry in the inbox, or nothing left from outside (R58). -/
def State.hasTurn (s : State) : Prop := s.inbox = [] ∨ ∃ rest, s.inbox = .tick :: rest

/-- The states in which a step can leave the block, with the entry of the inbox that brings each. -/
inductive State.Moves (s : State) : State → Prop
  /-- R200. -/
  | reset (rest : List Request) (inbox : s.inbox = .reset :: rest) : State.Moves s s.dropRequest.resetBlock
  /-- R50, R62. -/
  | payload (addr : Nat) (b : Byte) (rest : List Request) (inbox : s.inbox = .payload addr b :: rest) :
      State.Moves s (s.dropRequest.placePayload addr b)
  /-- R56. -/
  | ready (r : Bool) (rest : List Request) (inbox : s.inbox = .txReady r :: rest) :
      State.Moves s { s.dropRequest with txReady := r }
  /-- R193: a turn in which nothing is enabled, or a request that is dropped. -/
  | wait (inbox : ∀ a rest, s.inbox ≠ .host a :: rest) : State.Moves s s.dropRequest
  /-- R160. -/
  | host (a : Access) (t : State) (rest : List Request) (inbox : s.inbox = .host a :: rest)
      (answer : s.dropRequest.Answers a t) : State.Moves s t
  /-- R104 to R106. -/
  | engine (p : BitVec 9) (crc : Byte) (rest : List Request) (idle : s.mode ≠ .busy)
      (inbox : s.inbox = .engine p :: rest) : State.Moves s { s.dropRequest with crc := crc }
  /-- R130. -/
  | beat (turn : s.hasTurn) (enabled : s.dropRequest.canEmit s.seqPhase) :
      State.Moves s (s.dropRequest.afterMicroOp s.seqPhase)
  /-- D21, notes/assumptions/9.md. -/
  | frame (rest : List Request) (inbox : s.inbox = .frameTurn :: rest)
      (enabled : s.dropRequest.frameEnabled s.dueFlags) : State.Moves s s.dropRequest.emitFrame

theorem State.Moves.of_host {s t : State} {a : Access} {rest : List Request} (hi : s.inbox = .host a :: rest)
    (h : step s = .next t) : s.Moves t := by
  cases hd : decodeAccess s.W a with
  | error e =>
    have hstep : step s = .next (s.dropRequest.respond .err) := by
      rw [step_of_decodeAccess_error hi hd, State.dropRequest_of_cons hi]
      rfl
    cases hstep.symm.trans h
    exact .host a _ rest hi .refused
  | ok i =>
    rw [step_of_decodeAccess_ok hi hd, ← State.dropRequest_of_cons hi] at h
    exact .host a t rest hi (.of_decodeAccess (s := s.dropRequest) hd h)

/-- A turn of the sequencer emits a beat or waits. -/
theorem State.Moves.of_turn {s t : State} (ht : s.hasTurn) (h : step s = .next t) : s.Moves t := by
  have hwait : s.Moves s.dropRequest := by
    obtain hi | ⟨rest, hi⟩ := ht <;> exact .wait (by simp [hi])
  by_cases hb : s.mode = .busy
  · have hf : s.fetch = some (.seq s.seqPhase.code) := by
      obtain hi | ⟨rest, hi⟩ := ht <;> simp [State.fetch, hi, hb]
    rw [step_of_fetch_some hf (decode_seq_code s.W s.seqPhase)] at h
    by_cases he : s.dropRequest.canEmit s.seqPhase
    · cases (exec_microOp_of_canEmit he).symm.trans h
      exact .beat ht he
    · cases (exec_microOp_of_not_canEmit he).symm.trans h
      exact hwait
  · have hf : s.fetch = none := by
      obtain hi | ⟨rest, hi⟩ := ht <;> simp [State.fetch, hi, hb]
    cases (step_of_fetch_none hf).symm.trans h
    have hout : s.outside = s.dropRequest := by
      obtain hi | ⟨rest, hi⟩ := ht <;> simp [State.outside, hi]
    exact hout ▸ hwait

/-- A frame turn emits a frame or waits. -/
theorem State.Moves.of_frameTurn {s t : State} {rest : List Request} (hi : s.inbox = .frameTurn :: rest)
    (h : step s = .next t) : s.Moves t := by
  have hwait : s.Moves s.dropRequest := .wait (by simp [hi])
  by_cases hdue : s.mode = .busy ∧ s.seqPhase = .rid
  · obtain ⟨i, hd, he⟩ := decode_dueFlags s.W s
    have hf : s.fetch = some (.frame s.dueFlags) := by simp [State.fetch, hi, hdue]
    rw [step_of_fetch_some hf hd, he] at h
    cases h
    split
    case isTrue hen => exact .frame rest hi hen
    case isFalse => exact hwait
  · have hf : s.fetch = none := by simp only [State.fetch, hi, if_neg hdue]
    cases (step_of_fetch_none hf).symm.trans h
    simp only [State.outside, hi]
    exact hwait

theorem exec_decodeEngine (p : BitVec 9) (s : State) : ∃ crc, exec (decodeEngine p) s = .next { s with crc := crc } := by
  unfold decodeEngine
  split <;> exact ⟨_, rfl⟩

/-- An engine request runs outside BUSY and is dropped while BUSY. -/
theorem State.Moves.of_engine {s t : State} {p : BitVec 9} {rest : List Request} (hi : s.inbox = .engine p :: rest)
    (h : step s = .next t) : s.Moves t := by
  by_cases hb : s.mode = .busy
  · have hf : s.fetch = none := by simp [State.fetch, hi, hb]
    cases (step_of_fetch_none hf).symm.trans h
    simp only [State.outside, hi]
    exact .wait (by simp [hi])
  · have hf : s.fetch = some (.engine p) := by simp [State.fetch, hi, hb]
    obtain ⟨crc, he⟩ := exec_decodeEngine p s.dropRequest
    cases ((step_of_fetch_some (i := decodeEngine p) hf rfl).trans he).symm.trans h
    exact .engine p crc rest hb hi

/-- What a step can do, by the entry that the inbox holds next. -/
theorem step_moves {s t : State} (h : step s = .next t) : s.Moves t := by
  have houtside (hf : s.fetch = none) : t = s.outside :=
    (Host.Outcome.next.inj ((step_of_fetch_none hf).symm.trans h)).symm
  cases hi : s.inbox with
  | nil => exact .of_turn (.inl hi) h
  | cons r rest =>
    cases r with
    | tick => exact .of_turn (.inr ⟨rest, hi⟩) h
    | host a => exact .of_host hi h
    | frameTurn => exact .of_frameTurn hi h
    | engine p => exact .of_engine hi h
    | reset =>
      obtain rfl := houtside (by simp [State.fetch, hi])
      simp only [State.outside, hi]
      exact .reset rest hi
    | payload a b =>
      obtain rfl := houtside (by simp [State.fetch, hi])
      simp only [State.outside, hi]
      exact .payload a b rest hi
    | txReady r =>
      obtain rfl := houtside (by simp [State.fetch, hi])
      simp only [State.outside, hi]
      exact .ready r rest hi

end Sys2Proof.Machine
end

section
/-! The invariant in every step, by `step_moves` (spec/10_state.md R20 to R31, spec/93_implementation_defined.md Q13). -/

namespace Sys2Proof.Machine

open Sys2Proof

/-! The state after reset. -/

/-- A reset sets every register, and leaves the width and the payload space. -/
theorem State.inv_resetBlock {s : State} (hW : 32 ≤ s.W) (hspace : ∀ c ∈ s.pmem, c.1 < 2 ^ s.W) (hmem : s.pmem.wf) :
    s.resetBlock.Inv where
  width := hW
  ranges := ⟨Nat.two_pow_pos _, Nat.two_pow_pos _, Nat.two_pow_pos _, Nat.two_pow_pos _, Nat.two_pow_pos _,
    Nat.two_pow_pos _⟩
  space := hspace
  memory := hmem
  errcode := by simp
  count := Nat.zero_le _
  rest := fun _ => ⟨rfl, rfl, rfl⟩
  run := nofun
  offset := fun _ _ => rfl
  offData := nofun
  offCrc := nofun

/-- The state after reset is one that a reset leaves as it is, with an empty payload space. -/
theorem State.inv_reset : State.reset.Inv :=
  State.inv_resetBlock (s := State.reset) (Nat.le_refl _) nofun State.wf_reset

/-- Settles O44: the invariant as after every reset, and the reset column as the definition has it. -/
theorem resetStateMeetsTheInvariant : Obligations.ResetStateMeetsTheInvariant :=
  ⟨State.inv_reset, rfl, rfl, rfl, rfl, rfl, rfl, rfl, rfl, rfl, rfl, rfl, rfl, rfl, rfl⟩

/-! What comes from outside. -/

/-- The payload space may change to any other in canonical form. -/
theorem State.Inv.withMemory {s : State} (h : s.Inv) {m : Memory} (hspace : ∀ c ∈ m, c.1 < 2 ^ s.W) (hm : m.wf)
    (stale : List Host.Cell) : { s with pmem := m, stale := stale }.Inv :=
  ⟨h.width, h.ranges, hspace, hm, h.errcode, h.count, h.rest, h.run, h.offset, h.offData, h.offCrc⟩

/-- A byte is placed at a backed address, which has `W` bits (R50, R64). -/
theorem State.Inv.placePayload {s : State} (h : s.Inv) (a : Nat) (b : Byte) : (s.placePayload a b).Inv := by
  unfold State.placePayload
  split
  case isFalse => exact h
  case isTrue hback =>
    refine h.withMemory (fun c hc => ?_) (Memory.wf_write h.memory a b) _
    obtain hc | ⟨rfl, -⟩ := Memory.mem_write hc
    · exact h.space c hc
    · exact hback.1

/-- The three operand registers may hold any words of `W` bits (R162 to R164). -/
theorem State.Inv.withOperands {s : State} (h : s.Inv) {x y z : Nat} (hx : x < 2 ^ s.W) (hy : y < 2 ^ s.W)
    (hz : z < 2 ^ s.W) : { s with reportId := x, chunkCap := y, payloadLen := z }.Inv := by
  obtain ⟨-, -, -, hcap, hplen, hoff⟩ := h.ranges
  exact ⟨h.width, ⟨hx, hy, hz, hcap, hplen, hoff⟩, h.space, h.memory, h.errcode, h.count, h.rest, h.run, h.offset,
    h.offData, h.offCrc⟩

/-- The invariant looks at no field that these two differ in. -/
theorem State.Inv.withOutputs {s : State} (h : s.Inv) (crc : Byte) (ready : Bool) (replies : List Reply)
    (inbox : List Request) : { s with crc := crc, txReady := ready, replies := replies, inbox := inbox }.Inv :=
  h.congr ⟨rfl, rfl, rfl, rfl, rfl, rfl, rfl, rfl, rfl, rfl, rfl⟩ rfl rfl

theorem State.Inv.respond {s : State} (h : s.Inv) (r : Reply) : (s.respond r).Inv :=
  h.withOutputs s.crc s.txReady (s.replies ++ [r]) s.inbox

theorem State.Inv.dropRequest {s : State} (h : s.Inv) : s.dropRequest.Inv :=
  h.withOutputs s.crc s.txReady s.replies s.inbox.tail

/-! Starting a transfer, and leaving its result. -/

/-- R169: with the result its error code is left. -/
theorem State.Inv.leaveResult {s : State} (h : s.Inv) (hm : s.mode ≠ .busy) : s.leaveResult.Inv :=
  ⟨h.width, h.ranges, h.space, h.memory, by simp, h.count, fun _ => h.rest hm, nofun, h.offset, h.offData, h.offCrc⟩

/-- R186: an exception leaves the block at rest after no frame. -/
theorem State.Inv.takeException {s : State} (h : s.Inv) (e : Exc) : (s.takeException e).Inv := by
  obtain ⟨hrid, hcap, hlen, hcap', hplen, -⟩ := h.ranges
  exact ⟨h.width, ⟨hrid, hcap, hlen, hcap', hplen, Nat.two_pow_pos _⟩, h.space, h.memory, by simp, Nat.zero_le _,
    fun _ => ⟨rfl, rfl, rfl⟩, nofun, fun _ _ => rfl, nofun, nofun⟩

/-- R129: what an accepted CMD.START latches is a transfer, and its first frame is due. -/
theorem State.Inv.started {s : State} (h : s.Inv) (hC : 1 ≤ s.chunkCap)
    (hN : nframes s.payloadLen s.chunkCap ≤ Config.nmax) : s.started.Inv := by
  obtain ⟨hrid, hcap, hlen, -⟩ := h.ranges
  have hnfr : s.started.nfr.toNat = nframes s.payloadLen s.chunkCap :=
    (BitVec.toNat_ofNat _ _).trans (Nat.mod_eq_of_lt (hN.trans_lt (by decide)))
  have hrun : 1 ≤ s.chunkCap ∧ s.started.nfr.toNat = nframes s.payloadLen s.chunkCap ∧ 0 < s.started.nfr.toNat :=
    ⟨hC, hnfr, hnfr ▸ one_le_nframes _ _⟩
  exact ⟨h.width, ⟨hrid, hcap, hlen, hcap, hlen, Nat.two_pow_pos _⟩, h.space, h.memory, by simp [State.started],
    hnfr ▸ hN, fun hb => absurd rfl hb, fun _ => hrun, fun _ _ => rfl, nofun, nofun⟩

/-- Every answer to a host access keeps the invariant. -/
theorem State.Inv.of_answers {s t : State} {a : Access} (h : s.Inv) (ht : s.Answers a t) : t.Inv := by
  obtain ⟨hrid, hcap, hlen, -⟩ := h.ranges
  cases ht with
  | read v => exact h.respond _
  | refused => exact h.respond _
  | nop => exact h.respond _
  | reportId v hv => exact (h.withOperands hv hcap hlen).respond _
  | chunkCap v hv => exact (h.withOperands hrid hv hlen).respond _
  | payloadLen v hv => exact (h.withOperands hrid hcap hv).respond _
  | raise e hm => exact ((h.leaveResult hm).takeException e).respond _
  | start hm _ hC hN => exact h.started hC hN
  | clr hm => exact (h.leaveResult hm).respond _
  | crcClr => exact (h.withOutputs crcInit s.txReady s.replies s.inbox).respond _
  | crcData v => exact (h.withOutputs (s.crcAbsorb (BitVec.ofNat 8 v)).crc s.txReady s.replies s.inbox).respond _

/-! The turns of the sequencer. -/

/-- R28: before a data byte or after the last of them, with as many sent as `seq.off` says. -/
theorem State.Inv.moveInData {s t : State} (h : s.Inv) (hb : s.mode = .busy) (e : State.SameFrame s t)
    (ho : t.seqOff ≤ s.dueLen) (hp : t.seqPhase = if t.seqOff = s.dueLen then .crc else .data) : t.Inv := by
  have hrest (hm : s.mode ≠ .busy) : t.seqPhase = .rid := absurd hb hm
  by_cases hall : t.seqOff = s.dueLen
  · rw [if_pos hall] at hp
    exact h.moveInFrame e hrest (fun _ hc => absurd hp hc) (fun hd => nomatch hp.symm.trans hd) fun _ => hall
  · rw [if_neg hall] at hp
    exact h.moveInFrame e hrest (fun hd _ => absurd hp hd) (fun _ => Nat.lt_of_le_of_ne ho hall)
      fun hc => nomatch hp.symm.trans hc

/-- A micro-operation keeps the invariant where its phase is due: before the data it moves on within the frame, and with
the last byte of a frame to the next one. -/
theorem State.Inv.afterMicroOp {s : State} {p : Phase} (h : s.Inv) (hb : s.mode = .busy) (hp : s.seqPhase = p) :
    (s.afterMicroOp p).Inv := by
  cases p
  case rid | flags | reml | remh =>
    have hoff : s.seqOff = 0 := h.offset (by simp [hp]) (by simp [hp])
    exact h.moveInFrame ⟨rfl, rfl, rfl, rfl, rfl, rfl, rfl, rfl, rfl, rfl, rfl⟩ (fun hm => absurd hb hm)
      (fun _ _ => hoff) nofun nofun
  case len =>
    exact h.moveInData hb ⟨rfl, rfl, rfl, rfl, rfl, rfl, rfl, rfl, rfl, rfl, rfl⟩ (Nat.zero_le _)
      (if_congr eq_comm rfl rfl)
  case data =>
    have hframe : State.SameFrame s (s.afterMicroOp .data) := by
      constructor <;> simp [State.afterMicroOp]
    exact h.moveInData hb hframe (h.offData hp) rfl
  case crc => exact h.endFrame hb ⟨rfl, rfl, rfl, rfl, rfl, rfl, rfl, rfl, rfl, rfl, rfl⟩

theorem State.Inv.emitFrame {s : State} (h : s.Inv) (hb : s.mode = .busy) : s.emitFrame.Inv := by
  rw [State.emitFrame, State.readRun_state]
  exact h.endFrame hb ⟨rfl, rfl, rfl, rfl, rfl, rfl, rfl, rfl, rfl, rfl, rfl⟩

/-- Settles O45, by the states in which a step can leave the block. -/
theorem everyStepKeepsTheInvariant : Obligations.EveryStepKeepsTheInvariant := by
  intro s t h hstep
  cases step_moves hstep with
  | reset => exact State.inv_resetBlock (s := s.dropRequest) h.width h.space h.memory
  | payload a b => exact h.dropRequest.placePayload a b
  | ready r => exact h.withOutputs s.crc r s.replies s.inbox.tail
  | wait => exact h.dropRequest
  | host a t rest hi ha => exact h.dropRequest.of_answers ha
  | engine p crc => exact h.withOutputs crc s.txReady s.replies s.inbox.tail
  | beat _ he => exact h.dropRequest.afterMicroOp he.busy rfl
  | frame rest _ he => exact h.dropRequest.emitFrame he.busy

end Sys2Proof.Machine
end

section
/-! The TX trace of a transfer under every interleaving, by `step_moves` (spec/20_memory.md R58, R62, spec/10_state.md R44,
spec/41_encoder.md R140). -/

namespace Sys2Proof.Machine

open Sys2Proof

/-- The invariant, while BUSY and with the checksum register in step, describes a transfer in progress. -/
theorem State.Inv.inTransfer {s : State} (h : s.Inv) (hb : s.mode = .busy) (hcrc : s.crcInStep) : s.InTransfer := by
  obtain ⟨hcap, hcount, hindex⟩ := h.run hb
  exact ⟨hb, hcap, hcount, hindex, h.offData, h.offCrc, hcrc⟩

/-- While BUSY a host access neither moves the transfer nor touches the payload: commands are refused (R161). -/
theorem State.Answers.quiet {s t : State} {a : Access} (h : s.Answers a t) (hb : s.mode = .busy) :
    t.transfer = s.transfer ∧ t.place = s.place := by
  cases h with
  | raise _ hm | start hm | clr hm | crcClr hm | crcData _ hm => exact absurd hb hm
  | _ => exact ⟨rfl, rfl⟩

/-- With the payload stable after it, a step that is no reset emits some beats of the transfer, perhaps none, and no
others; what else is in the inbox makes no difference. -/
theorem State.InTransfer.moves_sends {s t : State} (h : s.InTransfer) (hwf : s.pmem.wf)
    (hr : s.inbox.head? ≠ some .reset) (hmove : s.Moves t) (ht : t.payloadStable) : ∃ new, s.Sends t new := by
  have hdrop : s.dropRequest.InTransfer := h.congr rfl rfl
  suffices hsends : ∃ new, s.dropRequest.Sends t new from
    hsends.imp fun _ hnew => ⟨hnew.tx, hnew.pending, hnew.goesOn⟩
  cases hmove with
  | reset rest hi => simp [hi] at hr
  | payload a b =>
    exact ⟨[], hdrop.sends_nil (State.transfer_placePayload h.busy hwf ht) (State.place_placePayload _ a b)⟩
  | ready | wait => exact ⟨[], hdrop.sends_nil rfl rfl⟩
  | host a t rest hi ha =>
    obtain ⟨htransfer, hplace⟩ := ha.quiet h.busy
    exact ⟨[], hdrop.sends_nil htransfer hplace⟩
  | engine _ _ _ hm => exact absurd h.busy hm
  | beat _ he =>
    have hs : s.dropRequest.payloadStable := by
      rw [State.afterMicroOp_frame] at ht
      exact ht
    obtain ⟨u, x, hexec, hsend⟩ := hdrop.exec_microOp_sends hs ⟨he.ready, he.backed⟩
    cases (exec_microOp_of_canEmit he).symm.trans hexec
    exact ⟨[x], hsend⟩
  | frame _ _ he =>
    have hs : s.dropRequest.payloadStable := by
      rw [State.emitFrame_frame] at ht
      exact ht
    exact ⟨_, hdrop.sends_emitFrame he.rid hs⟩

/-- Settles O46: the beats that a step emits are the first of those pending, and the transfer goes on or is DONE. -/
theorem emittedPlusPendingIsConstant : Obligations.EmittedPlusPendingIsConstant := by
  intro s t hinv hcrc hb hr hstep ht
  obtain ⟨new, hsend⟩ := (hinv.inTransfer hb hcrc).moves_sends hinv.memory hr (step_moves hstep) ht
  refine ⟨by rw [hsend.tx, hsend.pending, List.append_assoc], ?_, fun hm => ?_⟩
  · obtain hin | hdone := hsend.goesOn
    · exact hin.crc
    · exact fun hbusy => nomatch hdone.symm.trans hbusy
  · exact ⟨hsend.goesOn.resolve_left fun hin => hm hin.busy, State.pending_of_not_busy hm⟩

end Sys2Proof.Machine
end

section
/-! The rules about single steps: how a step comes to run an operation, that it always answers, and which steps change the
mode, the TX stream, the latched copies, the operand registers, the checksum register, the answers, and the platform's
side (spec/10_state.md R20 to R30, spec/20_memory.md R50 to R58, spec/42_host_interface.md R160). -/

namespace Sys2Proof.Machine

open Sys2Proof

/-! How a step comes to run an operation. -/

theorem step_of_fetch_rejected {s : State} {w : OpWord} {e : Reject} (hf : s.fetch = some w)
    (hd : decode s.W w = .error e) : step s = .next (s.dropRequest.rejectWord w) := by
  simp [step, hf, hd]

/-- Settles O5: the three branches of `step`. -/
theorem stepRunsTheDecodedOperation : Obligations.StepRunsTheDecodedOperation :=
  fun _ => ⟨fun _ _ => step_of_fetch_some, fun _ _ => step_of_fetch_rejected, step_of_fetch_none⟩

theorem State.fetch_of_hasTurn {s : State} (hb : s.mode = .busy) (h : s.hasTurn) :
    s.fetch = some (.seq s.seqPhase.code) := by
  obtain hi | ⟨rest, hi⟩ := h <;> simp [State.fetch, hi, hb]

/-- Settles O6: the word due is the code of the phase, and it decodes to the phase's micro-operation. -/
theorem sequencerTurnRunsThePhase : Obligations.SequencerTurnRunsThePhase := by
  intro s hb hturn
  have hstep : step s = exec s.seqPhase.microOp s.dropRequest :=
    step_of_fetch_some (State.fetch_of_hasTurn hb hturn) (decode_seq_code s.W s.seqPhase)
  refine ⟨?_, ?_, ?_, ?_, ?_, ?_, ?_⟩ <;> intro hp <;> rw [hstep, hp] <;> rfl

/-! Every step answers a next state. -/

/-- No arm of `exec` is a fault, and none is refused. -/
theorem exec_next (i : Instr) (s : State) : ∃ t, exec i s = .next t := by
  have hite {c : Prop} [Decidable c] {o p : Host.Outcome State Fault Refusal} (ho : ∃ t, o = .next t)
      (hp : ∃ t, p = .next t) : ∃ t, (if c then o else p) = .next t := by
    split
    · exact ho
    · exact hp
  cases i
  case cmdStart => exact hite ⟨_, rfl⟩ (hite ⟨_, rfl⟩ (hite ⟨_, rfl⟩ ⟨_, rfl⟩))
  case cmdClr | cmdCrcClr | wrCrcData => exact hite ⟨_, rfl⟩ ⟨_, rfl⟩
  all_goals exact ⟨_, rfl⟩

theorem step_next (s : State) : ∃ t, step s = .next t := by
  cases hf : s.fetch with
  | none => exact ⟨_, step_of_fetch_none hf⟩
  | some w =>
    cases hd : decode s.W w with
    | error e => exact ⟨_, step_of_fetch_rejected hf hd⟩
    | ok i =>
      rw [step_of_fetch_some hf hd]
      exact exec_next i s.dropRequest

/-- Settles O54: the arms of `exec`, and the three branches of `step`. -/
theorem everyStepAnswersANextState : Obligations.EveryStepAnswersANextState := ⟨exec_next, step_next⟩

/-! The mode and the TX stream. -/

/-- Settles O31: the mode changes in a reset, in an answered CMD.START or CMD.CLR, and at the end of the last frame. -/
theorem modeChangesOnlyAsListed : Obligations.ModeChangesOnlyAsListed := by
  intro s t h hne
  cases step_moves h with
  | reset rest hi => exact .inl ⟨⟨rest, hi⟩, rfl⟩
  | payload a b => exact absurd (s.dropRequest.placePayload_mode a b) hne
  | ready | wait | engine => exact absurd rfl hne
  | host a t rest hi ha =>
    cases ha with
    | raise e hm access => exact .inr (.inl ⟨⟨rest, access ▸ hi⟩, hm, .inr rfl⟩)
    | start hm access => exact .inr (.inl ⟨⟨rest, access ▸ hi⟩, hm, .inl rfl⟩)
    | clr hm access => exact .inr (.inr (.inl ⟨⟨rest, access ▸ hi⟩, hm, rfl⟩))
    | _ => exact absurd rfl hne
  | beat hturn he =>
    obtain ⟨hcrc, hlast, hdone⟩ := (s.dropRequest.afterMicroOp_mode s.seqPhase).resolve_left hne
    exact .inr (.inr (.inr ⟨he.busy, hdone, he.ready, hlast, .inl ⟨hturn, hcrc⟩⟩))
  | frame rest hi he =>
    obtain ⟨hlast, hdone⟩ := s.dropRequest.emitFrame_mode.resolve_left hne
    exact .inr (.inr (.inr ⟨he.busy, hdone, he.ready, hlast, .inr ⟨⟨rest, hi⟩, he.rid⟩⟩))

/-- No answer to a host access is a beat. -/
theorem State.Answers.tx {s t : State} {a : Access} (h : s.Answers a t) : t.tx = s.tx := by
  cases h <;> rfl

/-- Settles O50: the sequencer's two ways to go on emit, and nothing else does. -/
theorem txOnlyGrowsByBeatsOfTheSequencer : Obligations.TxOnlyGrowsByBeatsOfTheSequencer := by
  intro s t h
  cases step_moves h with
  | payload a b => exact .inl (s.dropRequest.placePayload_tx a b)
  | reset | ready | wait | engine => exact .inl rfl
  | host a t rest hi ha => exact .inl ha.tx
  | beat hturn he => exact .inr ⟨he.busy, he.ready, .inl ⟨hturn, s.dropRequest.afterMicroOp_tx s.seqPhase⟩⟩
  | frame rest hi he =>
    refine .inr ⟨he.busy, he.ready, .inr ⟨⟨rest, hi⟩, s.rid :: s.dropRequest.frameBody, ?_,
      crc8 s.dropRequest.frameBody, ?_⟩⟩
    · simp [State.frameBody]
    · rw [State.emitFrame_tx, frameBeats_eq, ← List.append_assoc]
      rfl

/-! The registers. -/

/-- What an accepted CMD.START latches (R24). -/
structure Latched where
  rid  : Byte
  cap  : Nat
  plen : Nat
  nfr  : BitVec 17

/-- The latched copies of a state. -/
def State.latched (s : State) : Latched := ⟨s.rid, s.cap, s.plen, s.nfr⟩

/-- A host access keeps the latched copies but for a CMD.START outside BUSY, which latches new ones or zeroes the frame
count. -/
theorem State.Answers.latched {s t : State} {a : Access} (h : s.Answers a t) : t.latched = s.latched ∨
    (a = writeAccess s.W .ctrl 1 ∧ s.mode ≠ .busy ∧
      (t.mode = .busy ∨ t.mode = .error ∧ t.latched = { s.latched with nfr := 0 })) := by
  cases h with
  | raise e hm access => exact .inr ⟨access, hm, .inr ⟨rfl, rfl⟩⟩
  | start hm access => exact .inr ⟨access, hm, .inl rfl⟩
  | _ => exact .inl rfl

/-- Settles O51: the latched copies change in a reset and in an answered CMD.START. -/
theorem latchedCopiesChangeOnlyAtStartOrReset : Obligations.LatchedCopiesChangeOnlyAtStartOrReset := by
  intro s t h
  have hkept (e : t.latched = s.latched) : (t.rid = s.rid ∧ t.cap = s.cap ∧ t.plen = s.plen) ∧ t.nfr = s.nfr := by
    obtain ⟨hrid, hcap, hplen, hnfr⟩ := Latched.mk.inj e
    exact ⟨⟨hrid, hcap, hplen⟩, hnfr⟩
  cases step_moves h with
  | reset rest hi => exact ⟨.inr (.inl ⟨rest, hi⟩), .inr (.inl ⟨rest, hi⟩)⟩
  | host a t rest hi ha =>
    obtain e | ⟨access, hm, hb | ⟨herr, e⟩⟩ := ha.latched
    · exact (hkept e).imp .inl .inl
    · exact ⟨.inr (.inr ⟨⟨rest, access ▸ hi⟩, hm, hb⟩), .inr (.inr ⟨⟨rest, access ▸ hi⟩, hm, .inl hb⟩)⟩
    · obtain ⟨hrid, hcap, hplen, hnfr⟩ := Latched.mk.inj e
      exact ⟨.inl ⟨hrid, hcap, hplen⟩, .inr (.inr ⟨⟨rest, access ▸ hi⟩, hm, .inr ⟨herr, hnfr⟩⟩)⟩
  | payload a b => exact (hkept (by simp [State.latched])).imp .inl .inl
  | ready | wait | engine => exact ⟨.inl ⟨rfl, rfl, rfl⟩, .inl rfl⟩
  | beat =>
    rw [State.afterMicroOp_frame]
    exact ⟨.inl ⟨rfl, rfl, rfl⟩, .inl rfl⟩
  | frame =>
    rw [State.emitFrame_frame]
    exact ⟨.inl ⟨rfl, rfl, rfl⟩, .inl rfl⟩

/-- Settles O53: the sequencer's turns, the two host operations of the engine, an engine request, and reset. -/
theorem checksumRegisterHasOneOwner : Obligations.ChecksumRegisterHasOneOwner := by
  intro s t h hne
  cases step_moves h with
  | reset rest hi => exact .inl ⟨rest, hi⟩
  | payload a b => exact absurd (s.dropRequest.placePayload_crc a b) hne
  | ready | wait => exact absurd rfl hne
  | host a t rest hi ha =>
    cases ha with
    | crcClr hm access => exact .inr (.inr ⟨hm, .inl ⟨rest, access ▸ hi⟩⟩)
    | crcData v hm access => exact .inr (.inr ⟨hm, .inr (.inl ⟨v, rest, access ▸ hi⟩)⟩)
    | _ => exact absurd rfl hne
  | engine p crc rest hm hi => exact .inr (.inr ⟨hm, .inr (.inr ⟨p, rest, hi⟩)⟩)
  | beat hturn he => exact .inr (.inl ⟨he.busy, hturn.imp_right .inl⟩)
  | frame rest hi he => exact .inr (.inl ⟨he.busy, .inr (.inr ⟨rest, hi⟩)⟩)

/-! The operand registers. -/

/-- `s` with other values in the three operand registers. -/
def State.withOperands (s : State) (x y z : Nat) : State := { s with reportId := x, chunkCap := y, payloadLen := z }

/-- An operand register is written by the write access to it alone (R162 to R164). -/
theorem State.Answers.operands {s t : State} {a : Access} (h : s.Answers a t) :
    (t.reportId = s.reportId ∨ a = writeAccess s.W .reportId t.reportId) ∧
    (t.chunkCap = s.chunkCap ∨ a = writeAccess s.W .chunkCap t.chunkCap) ∧
    (t.payloadLen = s.payloadLen ∨ a = writeAccess s.W .payloadLen t.payloadLen) := by
  cases h with
  | reportId v _ access => exact ⟨.inr access, .inl rfl, .inl rfl⟩
  | chunkCap v _ access => exact ⟨.inl rfl, .inr access, .inl rfl⟩
  | payloadLen v _ access => exact ⟨.inl rfl, .inl rfl, .inr access⟩
  | _ => exact ⟨.inl rfl, .inl rfl, .inl rfl⟩

theorem step_operands {s t : State} (h : step s = .next t) (hr : ∀ rest, s.inbox ≠ .reset :: rest) :
    (t.reportId = s.reportId ∨ ∃ rest, s.inbox = .host (writeAccess s.W .reportId t.reportId) :: rest) ∧
    (t.chunkCap = s.chunkCap ∨ ∃ rest, s.inbox = .host (writeAccess s.W .chunkCap t.chunkCap) :: rest) ∧
    (t.payloadLen = s.payloadLen ∨ ∃ rest, s.inbox = .host (writeAccess s.W .payloadLen t.payloadLen) :: rest) := by
  cases step_moves h with
  | reset rest hi => exact absurd hi (hr rest)
  | host a t rest hi ha =>
    have hwritten {r : Reg} {v : Nat} (e : a = writeAccess s.W r v) :
        ∃ rest, s.inbox = .host (writeAccess s.W r v) :: rest := ⟨rest, e ▸ hi⟩
    obtain ⟨hrid, hcap, hlen⟩ := ha.operands
    exact ⟨hrid.imp_right hwritten, hcap.imp_right hwritten, hlen.imp_right hwritten⟩
  | payload => simp
  | ready | wait | engine => exact ⟨.inl rfl, .inl rfl, .inl rfl⟩
  | beat =>
    rw [State.afterMicroOp_frame]
    exact ⟨.inl rfl, .inl rfl, .inl rfl⟩
  | frame =>
    rw [State.emitFrame_frame]
    exact ⟨.inl rfl, .inl rfl, .inl rfl⟩

theorem State.endFrame_withOperands (s : State) (x y z : Nat) :
    (s.withOperands x y z).endFrame = s.endFrame.withOperands x y z := by
  by_cases hlast : s.seqIdx.toNat + 1 = s.nfr.toNat
  · rw [State.endFrame_last hlast, State.endFrame_last (s := s.withOperands x y z) hlast]
    rfl
  · rw [State.endFrame_next hlast, State.endFrame_next (s := s.withOperands x y z) hlast]
    rfl

/-- Reading the payload space commutes with a change of the state that leaves alone what a read looks at: the bytes, those
overwritten while BUSY, and the count of races. -/
def CommutesWithReads (f : State → State) : Prop :=
  ∀ s a, (f s).payloadByte a = s.payloadByte a ∧ (f s).afterRead a = f (s.afterRead a)

theorem commutesWithReads {f : State → State} (hmem : ∀ s, (f s).pmem = s.pmem) (hstale : ∀ s, (f s).stale = s.stale)
    (hraces : ∀ s, (f s).raceCount = s.raceCount) (hcount : ∀ s n, f (s.withRaces n) = (f s).withRaces n) :
    CommutesWithReads f := by
  intro s a
  have hraced : (f s).raced a ↔ s.raced a := by rw [State.raced, hstale]
  constructor
  · simp only [State.payloadByte, State.heldBytes, hraced, hmem, hstale, hraces]
  · by_cases hrace : s.raced a
    · rw [State.afterRead_of_raced hrace, State.afterRead_of_raced (hraced.mpr hrace), hcount, hraces]
    · rw [State.afterRead_of_not_raced hrace, State.afterRead_of_not_raced (mt hraced.mp hrace)]

theorem CommutesWithReads.readRun {f : State → State} (h : CommutesWithReads f) (s : State) (a n : Nat) :
    (f s).readRun a n = ((s.readRun a n).1, f (s.readRun a n).2) := by
  induction n generalizing s a with
  | zero => rfl
  | succ n ih =>
    obtain ⟨hbyte, hafter⟩ := h s a
    simp only [State.readRun, hbyte, hafter, ih]

theorem commutesWithReads_withOperands (x y z : Nat) : CommutesWithReads (State.withOperands · x y z) :=
  commutesWithReads (fun _ => rfl) (fun _ => rfl) (fun _ => rfl) fun _ _ => rfl

theorem State.afterMicroOp_withOperands (s : State) (x y z : Nat) (p : Phase) :
    (s.withOperands x y z).afterMicroOp p = (s.afterMicroOp p).withOperands x y z := by
  cases p
  case crc => exact (s.txEmit s.crc true).endFrame_withOperands x y z
  case data =>
    simp only [State.afterMicroOp]
    rw [show (s.withOperands x y z).dueAddr = s.dueAddr from rfl,
      (commutesWithReads_withOperands x y z s s.dueAddr).2]
    rfl
  all_goals rfl

theorem State.emitFrame_withOperands (s : State) (x y z : Nat) :
    (s.withOperands x y z).emitFrame = s.emitFrame.withOperands x y z := by
  simp only [State.emitFrame]
  rw [← State.endFrame_withOperands, show (s.withOperands x y z).dueBase = s.dueBase from rfl,
    show (s.withOperands x y z).dueLen = s.dueLen from rfl, (commutesWithReads_withOperands x y z).readRun]
  rfl

/-- The operations of the sequencer: the frame operations and the micro-operations. -/
theorem mem_sequencer_cases {i : Instr} (h : i ∈ frameOps ++ seqOps) :
    (∃ flags, exec i = frameOperation flags) ∨ ∃ p : Phase, i = p.microOp := by
  simp only [frameOps, seqOps, List.mem_append, List.mem_cons, List.not_mem_nil, or_false] at h
  obtain (rfl | rfl | rfl) | rfl | rfl | rfl | rfl | rfl | rfl | rfl := h
  · exact .inl ⟨flagFirst, rfl⟩
  · exact .inl ⟨flagMiddle, rfl⟩
  · exact .inl ⟨flagLast, rfl⟩
  · exact .inr ⟨.rid, rfl⟩
  · exact .inr ⟨.flags, rfl⟩
  · exact .inr ⟨.reml, rfl⟩
  · exact .inr ⟨.remh, rfl⟩
  · exact .inr ⟨.len, rfl⟩
  · exact .inr ⟨.data, rfl⟩
  · exact .inr ⟨.crc, rfl⟩

/-- The sequencer does not see the operand registers. -/
theorem exec_sequencer_withOperands {i : Instr} (hi : i ∈ frameOps ++ seqOps) {s t : State} (x y z : Nat)
    (h : exec i s = .next t) : exec i (s.withOperands x y z) = .next (t.withOperands x y z) := by
  obtain ⟨flags, he⟩ | ⟨p, rfl⟩ := mem_sequencer_cases hi
  · rw [he] at h ⊢
    cases h
    rw [frameOperation, State.emitFrame_withOperands, apply_ite (State.withOperands · x y z)]
    rfl
  · rw [exec_microOp] at h ⊢
    cases h
    rw [State.afterMicroOp_withOperands, apply_ite (State.withOperands · x y z)]
    rfl

/-- Settles O52: in a step only their own writes change them, and the sequencer commutes with any change of them. -/
theorem operandRegistersDoNotDisturbTheTransfer : Obligations.OperandRegistersDoNotDisturbTheTransfer :=
  ⟨fun _ _ => step_operands, fun _ hi _ _ x y z => exec_sequencer_withOperands hi x y z⟩

/-! The answers, and what belongs to the platform. -/

/-- A step uses up the entry of the inbox that brought it. -/
theorem State.Answers.inbox {s t : State} {a : Access} (h : s.Answers a t) : t.inbox = s.inbox := by
  cases h <;> rfl

/-- With one answer more, a read is answered a word or ERR, and a write OK or ERR (R160). -/
def AnsweredOnce (a : Access) (before after : List Reply) : Prop :=
  (a.dir = .read → ∃ v : Nat, after = before ++ [.data v] ∨ after = before ++ [.err]) ∧
  (a.dir = .write → after = before ++ [.ok] ∨ after = before ++ [.err])

theorem answeredOnce_ok (W : Nat) (r : Reg) (v : Nat) (before : List Reply) :
    AnsweredOnce (writeAccess W r v) before (before ++ [.ok]) :=
  ⟨nofun, fun _ => .inl rfl⟩

theorem State.Answers.replies {s t : State} {a : Access} (h : s.Answers a t) : AnsweredOnce a s.replies t.replies := by
  cases h with
  | read v dir => exact ⟨fun _ => ⟨v, .inl rfl⟩, fun hd => nomatch dir.symm.trans hd⟩
  | refused => exact ⟨fun _ => ⟨0, .inr rfl⟩, fun _ => .inr rfl⟩
  | nop access | reportId _ _ access | chunkCap _ _ access | payloadLen _ _ access | raise _ _ access
  | start _ access | clr _ access | crcClr _ access | crcData _ _ access =>
    subst access
    exact answeredOnce_ok ..

/-- The answers after one step: one more to a host access, and otherwise those of before. -/
def State.AnswersInOrder (s t : State) : Prop :=
  t.inbox = s.inbox.tail ∧ (∀ a rest, s.inbox = .host a :: rest → AnsweredOnce a s.replies t.replies) ∧
    ((∀ a rest, s.inbox ≠ .host a :: rest) → t.replies = s.replies)

theorem State.answersInOrder_of_no_access {s t : State} (hi : ∀ a rest, s.inbox ≠ .host a :: rest)
    (hinbox : t.inbox = s.inbox.tail) (hreplies : t.replies = s.replies) : s.AnswersInOrder t :=
  ⟨hinbox, fun a rest ha => absurd ha (hi a rest), fun _ => hreplies⟩

/-- Settles O55: a host access leaves the block with one answer more, and every other step with none. -/
theorem everyAccessIsAnsweredOnceInOrder : Obligations.EveryAccessIsAnsweredOnceInOrder := by
  intro s t h
  show s.AnswersInOrder t
  cases step_moves h with
  | host a t rest hi ha =>
    refine ⟨ha.inbox, fun b rest' hb => ?_, fun hne => absurd hi (hne a rest)⟩
    cases hi.symm.trans hb
    exact ha.replies
  | payload a b rest hi => exact State.answersInOrder_of_no_access (by simp [hi]) (by simp) (by simp)
  | wait hi => exact State.answersInOrder_of_no_access hi rfl rfl
  | reset rest hi | ready _ rest hi | engine _ _ rest _ hi =>
    exact State.answersInOrder_of_no_access (by simp [hi]) rfl rfl
  | beat hturn =>
    rw [State.afterMicroOp_frame]
    exact State.answersInOrder_of_no_access (by obtain hi | ⟨rest, hi⟩ := hturn <;> simp [hi]) rfl rfl
  | frame rest hi =>
    rw [State.emitFrame_frame]
    exact State.answersInOrder_of_no_access (by simp [hi]) rfl rfl

theorem step_of_txReady {s : State} {r : Bool} {rest : List Request} (h : s.inbox = .txReady r :: rest) :
    step s = .next { s with txReady := r, inbox := rest } := by
  rw [step_of_fetch_none (by simp [State.fetch, h])]
  simp only [State.outside, h, State.dropRequest_of_cons h]

theorem State.Answers.environment {s t : State} {a : Access} (h : s.Answers a t) :
    t.W = s.W ∧ t.unbacked = s.unbacked ∧ t.txReady = s.txReady := by
  cases h <;> exact ⟨rfl, rfl, rfl⟩

/-- Settles O56: of the states in which a step can leave the block, only that of the consumer's event differs in one of
the three. -/
theorem readinessAndBackingAreTheEnvironments : Obligations.ReadinessAndBackingAreTheEnvironments := by
  refine ⟨fun s t h => ?_, fun s r rest h => step_of_txReady h⟩
  cases step_moves h with
  | host a t rest hi ha =>
    obtain ⟨hW, hback, hready⟩ := ha.environment
    exact ⟨hW, hback, .inl hready⟩
  | payload a b => simp
  | ready r rest hi => exact ⟨rfl, rfl, .inr ⟨rest, hi⟩⟩
  | reset | wait | engine => exact ⟨rfl, rfl, .inl rfl⟩
  | beat =>
    rw [State.afterMicroOp_frame]
    exact ⟨rfl, rfl, .inl rfl⟩
  | frame =>
    rw [State.emitFrame_frame]
    exact ⟨rfl, rfl, .inl rfl⟩

/-- Settles O58: the state that a reset leaves, field by field. -/
theorem resetKeepsWhatIsOutsideTheBlock : Obligations.ResetKeepsWhatIsOutsideTheBlock :=
  fun _ _ h => ⟨_, step_of_reset h, rfl, rfl, rfl, rfl, congrArg List.tail h, rfl, rfl⟩

/-! A payload byte placed. -/

theorem step_of_payload {s : State} {a : Nat} {b : Byte} {rest : List Request} (h : s.inbox = .payload a b :: rest) :
    step s = .next ({ s with inbox := rest }.placePayload a b) := by
  rw [step_of_fetch_none (by simp [State.fetch, h])]
  simp only [State.outside, h, State.dropRequest_of_cons h]

theorem State.placePayload_of_backed {s : State} {a : Nat} (b : Byte) (h : s.backed a) :
    s.placePayload a b = { s with
      pmem := s.pmem.write a b
      stale := if s.mode = .busy ∧ a < s.plen ∧ s.pmem.read a ≠ b then (a, s.pmem.read a) :: s.stale else s.stale } :=
  if_pos h

/-- Settles O59: what the platform does not back is not placed. -/
theorem unbackedPayloadBytesAreDropped : Obligations.UnbackedPayloadBytesAreDropped := by
  intro s a b rest h hback
  have hdrop : { s with inbox := rest }.placePayload a b = { s with inbox := rest } := if_neg hback
  rw [step_of_payload h, hdrop]

/-- Settles O49: read after write in the canonical form, and the memory of races by its own test. -/
theorem placedPayloadBytesReadBack : Obligations.PlacedPayloadBytesReadBack := by
  intro s a b rest hwf h hback
  have hstep := step_of_payload h
  rw [State.placePayload_of_backed (s := { s with inbox := rest }) b hback] at hstep
  refine ⟨_, hstep, rfl, Memory.read_write_same hwf a b, fun c hc => Memory.read_write_other s.pmem b hc, ?_,
    fun hrace => if_neg hrace⟩
  intro hb ha hne hstable
  exact List.cons_ne_nil _ _ ((if_pos ⟨hb, ha, hne⟩).symm.trans hstable)

end Sys2Proof.Machine
end

section
/-! The encoder against the decoder, for words and for the numbers that the opcode table packs them in (spec/30_encoding.md
R80 to R88). -/

namespace Sys2Proof

/-! The number of a word, as the opcode table packs it. -/

/-- A word whose number the opcode table packs: a flags byte with a bit above bit 4, since below 8 the number is read as a
phase code (log 24), and a host access of one whole word at an offset of six bits. -/
def OpWord.packable (W : Nat) : OpWord → Prop
  | .frame flags => 0x20 ≤ flags.toNat
  | .host a => a.bits = W ∧ a.addr < 64
  | .seq _ | .engine _ => True

/-- R88: a HOST row has its `W + 7` bits in whole bytes, which are more than two. -/
theorem hostBits_le_tableBits {W : Nat} (hW : 32 ≤ W) :
    hostBits W ≤ Format.tableBits W .host ∧ 16 < Format.tableBits W .host := by
  simp only [Format.tableBits, hostBits]
  omega

theorem OpWord.pattern_lt {W : Nat} {w : OpWord} (hW : 32 ≤ W) (h : w.packable W) :
    w.pattern W < 2 ^ w.format.tableBits W := by
  cases w with
  | frame flags => exact flags.isLt
  | seq code => exact code.isLt.trans (by decide : 2 ^ 3 < 2 ^ 8)
  | engine p => exact p.isLt.trans (by decide : 2 ^ 9 < 2 ^ 16)
  | host a => exact (Access.pack_lt h.1).trans_le (Nat.pow_le_pow_right (by decide) (hostBits_le_tableBits hW).1)

/-- Packing a word as a number of the table loses nothing. -/
theorem tableWord_pattern {W : Nat} {w : OpWord} (hW : 32 ≤ W) (h : w.packable W) :
    tableWord W (w.format.tableBits W) (w.pattern W) = some w := by
  cases w with
  | frame flags =>
    have hlow : ¬ flags.toNat < 8 := Nat.not_lt.mpr (Nat.le_trans (by decide) h)
    have hbyte : 0x20 ≤ flags.toNat ∧ flags.toNat < 0x100 := ⟨h, flags.isLt⟩
    simp [tableWord, OpWord.format, Format.tableBits, OpWord.pattern, hlow, hbyte]
  | seq code =>
    have hlow : code.toNat < 8 := code.isLt
    simp [tableWord, OpWord.format, Format.tableBits, OpWord.pattern, hlow]
  | engine p =>
    have hlow : p.toNat < 0x200 := p.isLt
    simp [tableWord, OpWord.format, Format.tableBits, OpWord.pattern, hlow]
  | host a =>
    obtain ⟨hbits, haddr⟩ := h
    have hwide := (hostBits_le_tableBits hW).2
    have h8 : ¬ Format.tableBits W .host ≤ 8 := by omega
    have hword : tableWord W (Format.tableBits W .host) (a.pack W) = some (.host (Access.unpack W (a.pack W))) :=
      (if_neg h8).trans ((if_neg (Nat.not_le.mpr hwide)).trans (if_pos (Access.pack_lt hbits)))
    rw [Access.unpack_pack hbits haddr] at hword
    exact hword

theorem decodeTableWordAt_pattern {W : Nat} {w : OpWord} {i : Instr} (hW : 32 ≤ W) (h : w.packable W)
    (hd : decode W w = .ok i) : decodeTableWordAt W (w.format.tableBits W) (w.pattern W) = some i := by
  simp only [decodeTableWordAt, tableWord_pattern hW h, hd]
  rfl

/-! Decoding what the encoder writes. -/

theorem Reg.offset_lt_64 (r : Reg) : r.offset < 64 := r.offset_in_map.2.trans (by decide)

theorem packable_readAccess (W : Nat) (r : Reg) : (OpWord.host (readAccess W r)).packable W := ⟨rfl, r.offset_lt_64⟩

theorem packable_writeAccess (W : Nat) (r : Reg) (v : Nat) : (OpWord.host (writeAccess W r v)).packable W :=
  ⟨rfl, r.offset_lt_64⟩

/-- The encoder writes words that the opcode table packs. -/
theorem packable_encode (W : Nat) (i : Instr) : (encode W i).packable W := by
  cases i
  case frameFirst | frameMiddle | frameLast => show (0x20 : Nat) ≤ _; decide
  case emitRid | emitFlags | emitReml | emitRemh | emitLen | emitData | emitCrc | crcClr | crcByte => trivial
  case cmdNop | cmdStart | cmdClr | cmdCrcClr | wrReportId | wrChunkCap | wrPayloadLen | wrCrcData =>
    exact packable_writeAccess W _ _
  all_goals exact packable_readAccess W _

/-- A whole-word write of a word of `W` bits is decoded with its data unchanged. -/
theorem decode_writeAccess {W : Nat} (r : Reg) {v : Nat} (hv : v < 2 ^ W) :
    decode W (.host (writeAccess W r v)) = decodeWrite r v := by
  refine (decodeAccess_write W r (BitVec.ofNat W v)).trans ?_
  rw [BitVec.toNat_ofNat, Nat.mod_eq_of_lt hv]

theorem lt_two_pow_of_width {W v : Nat} (hW : 32 ≤ W) (hv : v < 2 ^ 32) : v < 2 ^ W :=
  hv.trans_le (Nat.pow_le_pow_right (by decide) hW)

theorem decodeEngine_crcByte (b : Byte) : decodeEngine (0x100 ||| b.setWidth 9) = .crcByte b := by
  have hsel : (0x100 ||| b.setWidth 9 : BitVec 9).getLsbD 8 = true := by simp
  have hbyte : (0x100 ||| b.setWidth 9 : BitVec 9).setWidth 8 = b := by simp
  rw [decodeEngine, if_pos hsel, hbyte]

/-- R80 to R88: the decoder reads an operation from its encoding. -/
theorem decode_encode {W : Nat} {i : Instr} (hW : 32 ≤ W) (hi : i.wellFormed W = true) :
    decode W (encode W i) = .ok i := by
  have hread (r : Reg) : decode W (.host (readAccess W r)) = .ok (decodeRead r) := decodeAccess_read W r 0
  have hcommand {v : Nat} (hv : v < 2 ^ 32) : decode W (.host (writeAccess W .ctrl v)) = decodeCommand v :=
    decode_writeAccess .ctrl (lt_two_pow_of_width hW hv)
  cases i
  case frameFirst | frameMiddle | frameLast | crcClr => rfl
  case emitRid | emitFlags | emitReml | emitRemh | emitLen | emitData | emitCrc => rfl
  case cmdNop | cmdStart | cmdClr | cmdCrcClr => exact hcommand (by decide)
  case wrReportId | wrChunkCap | wrPayloadLen => exact decode_writeAccess _ (of_decide_eq_true hi)
  case wrCrcData v =>
    have hv : v ≤ 0xFF := of_decide_eq_true hi
    exact (decode_writeAccess .crcData (lt_two_pow_of_width hW (by omega))).trans (decodeWrite_crcData_of_le hv)
  case crcByte b => exact congrArg Except.ok (decodeEngine_crcByte b)
  all_goals exact hread _

/-- Settles O1: the decoder undoes the encoder, and the packing of the encoder's words is undone before it. -/
theorem decodeOfEncodeIsTheOperation : Obligations.DecodeOfEncodeIsTheOperation := by
  intro W i hW hi
  have hpack := packable_encode W i
  have hd := decode_encode hW hi
  exact ⟨hd, OpWord.pattern_lt hW hpack, decodeTableWordAt_pattern hW hpack hd⟩

/-- Settles O4: the packed numbers are unpacked and decoded by computation. -/
theorem wordsOfTheSpecDecode : Obligations.WordsOfTheSpecDecode := by
  unfold Obligations.WordsOfTheSpecDecode
  decide

end Sys2Proof
end

section
/-! The decoder against the opcode table: which words a row matches, that these are the words that decode to an operation
of the row, and that no two rows match one pattern (spec/30_encoding.md R80 to R88). -/

namespace Sys2Proof

/-! Which packed accesses a HOST row matches. -/

/-- `dir addr[5:0]` of a packed access (R88). -/
def Access.select (a : Access) : Nat := (match a.dir with | .read => 0 | .write => 64) + a.addr % 64

theorem Access.pack_eq (W : Nat) (a : Access) : a.pack W = a.select * 2 ^ W + a.wdata.toNat := rfl

theorem Access.select_lt (a : Access) : a.select < 128 := by
  unfold Access.select
  split <;> omega

/-- An access that selects a register to be read is a read of it. -/
theorem Access.eq_read_of_select {a : Access} {r : Reg} (ha : a.addr < 64) (h : a.select = r.offset) :
    a = ⟨.read, r.offset, a.bits, a.wdata⟩ := by
  have hr := r.offset_lt_64
  obtain ⟨_ | _, addr, bits, w⟩ := a <;> simp only [Access.select] at h ha ⊢
  · rw [← h, Nat.zero_add, Nat.mod_eq_of_lt ha]
  · omega

/-- An access that selects a register to be written is a write of it. -/
theorem Access.eq_write_of_select {a : Access} {r : Reg} (ha : a.addr < 64) (h : a.select = 64 + r.offset) :
    a = ⟨.write, r.offset, a.bits, a.wdata⟩ := by
  have hr := r.offset_lt_64
  obtain ⟨_ | _, addr, bits, w⟩ := a <;> simp only [Access.select] at h ha ⊢
  · omega
  · rw [← Nat.add_left_cancel h, Nat.mod_eq_of_lt ha]

/-- A number in two parts, the lower one of `n` bits, has no other such parts. -/
theorem mul_two_pow_add_inj {n k m x y : Nat} (hx : x < 2 ^ n) (hy : y < 2 ^ n)
    (h : k * 2 ^ n + x = m * 2 ^ n + y) : k = m ∧ x = y := by
  have parts (j z : Nat) (hz : z < 2 ^ n) : (j * 2 ^ n + z) / 2 ^ n = j ∧ (j * 2 ^ n + z) % 2 ^ n = z := by
    rw [Nat.mul_comm, Nat.mul_add_div (Nat.two_pow_pos n), Nat.mul_add_mod]
    exact ⟨by rw [Nat.div_eq_of_lt hz, Nat.add_zero], Nat.mod_eq_of_lt hz⟩
  obtain ⟨hk, hx'⟩ := parts k x hx
  obtain ⟨hm, hy'⟩ := parts m y hy
  rw [h] at hk hx'
  exact ⟨hk.symm.trans hm, hx'.symm.trans hy'⟩

section Select

variable {W : Nat} {a : Access} (hbits : a.bits = W)

include hbits

theorem Access.wdata_lt : a.wdata.toNat < 2 ^ W := hbits ▸ a.wdata.isLt

theorem select_of_hostRow_matches {name : String} {k : Nat}
    (h : (hostRow W name k).matchesPattern (a.pack W) = true) : a.select = k := by
  have hmask : a.pack W &&& 0x7F * 2 ^ W = k * 2 ^ W := eq_of_beq h
  rw [Access.pack_eq, Laws.EncodingMatchesItsRow.and_mask _ _ _ _ (Access.wdata_lt hbits),
    Nat.and_two_pow_sub_one_eq_mod _ 7, Nat.mod_eq_of_lt a.select_lt] at hmask
  exact Nat.eq_of_mul_eq_mul_right (Nat.two_pow_pos W) hmask

theorem select_of_commandRow_matches {name : String} {c : Nat} (hc : c < 2 ^ W)
    (h : (commandRow W name c).matchesPattern (a.pack W) = true) : a.select = 64 ∧ a.wdata.toNat = c := by
  have hmask : a.pack W &&& (2 ^ hostBits W - 1) = 0x40 * 2 ^ W + c := eq_of_beq h
  rw [Nat.and_two_pow_sub_one_eq_mod, Nat.mod_eq_of_lt (Access.pack_lt hbits), Access.pack_eq] at hmask
  exact mul_two_pow_add_inj (Access.wdata_lt hbits) hc hmask

/-- The mask of WR.CRC_DATA leaves out the low eight bits of the data (R88). -/
theorem select_of_crcDataRow_matches {v : Nat} (hW : 32 ≤ W)
    (h : ((Instr.wrCrcData v).row W).matchesPattern (a.pack W) = true) :
    a.select = 0x5C ∧ a.wdata.toNat ≤ 0xFF := by
  obtain ⟨n, rfl⟩ : ∃ n, W = n + 8 := ⟨W - 8, by omega⟩
  have hx : a.wdata.toNat < 2 ^ (n + 8) := Access.wdata_lt hbits
  have hpack : a.pack (n + 8) = (a.select * 2 ^ n + a.wdata.toNat / 256) * 2 ^ 8 + a.wdata.toNat % 256 := by
    rw [Access.pack_eq, Nat.pow_add, ← Nat.mul_assoc]
    omega
  have hmask : a.pack (n + 8) &&& (2 ^ (n + 7) - 1) * 2 ^ 8 = (0x5C * 2 ^ n) * 2 ^ 8 := by
    have e : 2 ^ hostBits (n + 8) - 0x100 = (2 ^ (n + 7) - 1) * 2 ^ 8 := by
      rw [Nat.sub_mul, ← Nat.pow_add]
      rfl
    have hrow := eq_of_beq h
    simp only [Instr.row, e] at hrow
    rw [hrow, Nat.pow_add, Nat.mul_assoc]
  have hdiv : a.wdata.toNat / 256 < 2 ^ n := by
    rw [Nat.div_lt_iff_lt_mul (by decide)]
    exact hx.trans_eq (Nat.pow_add 2 n 8)
  have hlow : a.select * 2 ^ n + a.wdata.toNat / 256 < 2 ^ (n + 7) := by
    have hsel := Nat.mul_le_mul_right (2 ^ n) (Nat.succ_le_of_lt a.select_lt)
    rw [Nat.succ_mul] at hsel
    rw [Nat.pow_add]
    omega
  have hrest : a.wdata.toNat % 256 < 2 ^ 8 := Nat.mod_lt _ (by decide)
  rw [hpack, Laws.EncodingMatchesItsRow.and_mask _ _ _ _ hrest,
    Nat.and_two_pow_sub_one_eq_mod, Nat.mod_eq_of_lt hlow] at hmask
  have hparts := mul_two_pow_add_inj hdiv (Nat.two_pow_pos n)
    (Nat.eq_of_mul_eq_mul_right (by decide : 0 < 2 ^ 8) hmask)
  omega

/-- The decoder reads a register where the access selects it to be read. -/
theorem decode_of_select_read (haddr : a.addr < 64) {r : Reg} (h : a.select = r.offset) :
    decode W (.host a) = .ok (decodeRead r) := by
  subst hbits
  exact (congrArg (decodeAccess a.bits) (Access.eq_read_of_select haddr h)).trans (decodeAccess_read ..)

/-- The decoder writes a register where the access selects it to be written. -/
theorem decode_of_select_write (haddr : a.addr < 64) {r : Reg} (h : a.select = 64 + r.offset) :
    decode W (.host a) = decodeWrite r a.wdata.toNat := by
  subst hbits
  exact (congrArg (decodeAccess a.bits) (Access.eq_write_of_select haddr h)).trans (decodeAccess_write ..)

end Select

/-! A word that matches a row decodes to an operation of the row. -/

/-- The word decodes to an operation of the row. -/
def OpWord.DecodesTo (W : Nat) (w : OpWord) (r : Row) : Prop := ∃ i, decode W w = .ok i ∧ i.row W = r

theorem decodeRead_row (W : Nat) (r : Reg) : ∃ name, (decodeRead r).row W = hostRow W name r.offset := by
  cases r <;> exact ⟨_, rfl⟩

theorem decodesTo_of_matches_host {W : Nat} {a : Access} {i : Instr} (hW : 32 ≤ W) (hbits : a.bits = W)
    (haddr : a.addr < 64) (hf : (i.row W).format = .host) (hm : (i.row W).matchesPattern (a.pack W) = true) :
    OpWord.DecodesTo W (.host a) (i.row W) := by
  have hread (r : Reg) (h : ((decodeRead r).row W).matchesPattern (a.pack W) = true) :
      OpWord.DecodesTo W (.host a) ((decodeRead r).row W) := by
    obtain ⟨name, hrow⟩ := decodeRead_row W r
    exact ⟨_, decode_of_select_read hbits haddr (select_of_hostRow_matches hbits (hrow ▸ h)), rfl⟩
  have hcommand {name : String} {c : Nat} {j : Instr} (hc : c < 2 ^ 32) (hd : decodeCommand c = .ok j)
      (h : (commandRow W name c).matchesPattern (a.pack W) = true) : decode W (.host a) = .ok j := by
    obtain ⟨hselect, hdata⟩ := select_of_commandRow_matches hbits (lt_two_pow_of_width hW hc) h
    exact (decode_of_select_write (r := .ctrl) hbits haddr hselect).trans ((congrArg decodeCommand hdata).trans hd)
  cases i
  case rdCtrl => exact hread .ctrl hm
  case rdStatus => exact hread .status hm
  case rdReportId => exact hread .reportId hm
  case rdChunkCap => exact hread .chunkCap hm
  case rdPayloadLen => exact hread .payloadLen hm
  case rdFrameCount => exact hread .frameCount hm
  case rdFrameIndex => exact hread .frameIndex hm
  case rdCrcData => exact hread .crcData hm
  case rdCrcValue => exact hread .crcValue hm
  case rdSeqPhase => exact hread .seqPhase hm
  case rdSeqOff => exact hread .seqOff hm
  case cmdNop => exact ⟨_, hcommand (by decide) rfl hm, rfl⟩
  case cmdStart => exact ⟨_, hcommand (by decide) rfl hm, rfl⟩
  case cmdClr => exact ⟨_, hcommand (by decide) rfl hm, rfl⟩
  case cmdCrcClr => exact ⟨_, hcommand (by decide) rfl hm, rfl⟩
  case wrReportId =>
    exact ⟨_, decode_of_select_write (r := .reportId) hbits haddr (select_of_hostRow_matches hbits hm), rfl⟩
  case wrChunkCap =>
    exact ⟨_, decode_of_select_write (r := .chunkCap) hbits haddr (select_of_hostRow_matches hbits hm), rfl⟩
  case wrPayloadLen =>
    exact ⟨_, decode_of_select_write (r := .payloadLen) hbits haddr (select_of_hostRow_matches hbits hm), rfl⟩
  case wrCrcData =>
    obtain ⟨hselect, hdata⟩ := select_of_crcDataRow_matches hbits hW hm
    exact ⟨_, (decode_of_select_write (r := .crcData) hbits haddr hselect).trans (decodeWrite_crcData_of_le hdata), rfl⟩
  all_goals cases hf

theorem decodesTo_of_matches_frame {W : Nat} {flags : Byte} {i : Instr} (hf : (i.row W).format = .frame)
    (hm : (i.row W).matchesPattern flags.toNat = true) : OpWord.DecodesTo W (.frame flags) (i.row W) := by
  have hkind {v : Nat} (h : (flags.toNat &&& 0xE0 == v) = true) : (flags &&& 0xE0).toNat = v :=
    (BitVec.toNat_and ..).trans (eq_of_beq h)
  cases i
  case frameFirst | frameMiddle | frameLast => exact ⟨_, by rw [decode, decodeFlags, hkind hm]; rfl, rfl⟩
  all_goals cases hf

theorem decodesTo_of_matches_seq {W : Nat} {code : BitVec 3} {i : Instr} (hf : (i.row W).format = .seq)
    (hm : (i.row W).matchesPattern code.toNat = true) : OpWord.DecodesTo W (.seq code) (i.row W) := by
  have hcode {v : Nat} (h : (code.toNat &&& 0x7 == v) = true) : code.toNat = v := by
    rw [← eq_of_beq h, Nat.and_two_pow_sub_one_eq_mod _ 3, Nat.mod_eq_of_lt code.isLt]
  cases i
  case emitRid | emitFlags | emitReml | emitRemh | emitLen | emitData | emitCrc =>
    exact ⟨_, by rw [decode, decodePhase, hcode hm]; rfl, rfl⟩
  all_goals cases hf

/-- The select bit of an engine pattern, as its mask sees it (R88). -/
theorem and_select (p : BitVec 9) : p.toNat &&& 0x100 = if p.getLsbD 8 then 0x100 else 0 := by
  have hbit : p.getLsbD 8 = p.toNat.testBit 8 := rfl
  rw [hbit]
  exact (Nat.and_two_pow p.toNat 8).trans (by cases p.toNat.testBit 8 <;> rfl)

theorem decodesTo_of_matches_engine {W : Nat} {p : BitVec 9} {i : Instr} (hf : (i.row W).format = .engine)
    (hm : (i.row W).matchesPattern p.toNat = true) : OpWord.DecodesTo W (.engine p) (i.row W) := by
  cases i
  case crcClr =>
    have hselect : p.toNat &&& 0x100 = 0 := eq_of_beq hm
    rw [and_select] at hselect
    exact ⟨_, congrArg Except.ok (if_neg fun h => absurd ((if_pos h).symm.trans hselect) (by decide)), rfl⟩
  case crcByte =>
    have hselect : p.toNat &&& 0x100 = 0x100 := eq_of_beq hm
    rw [and_select] at hselect
    exact ⟨_, congrArg Except.ok (if_pos (by_contra fun h => absurd ((if_neg h).symm.trans hselect) (by decide))), rfl⟩
  all_goals cases hf

theorem decodesTo_of_matches {W : Nat} {w : OpWord} {i : Instr} (hW : 32 ≤ W)
    (hw : ∀ a, w = .host a → a.bits = W ∧ a.addr < 64) (hf : (i.row W).format = w.format)
    (hm : (i.row W).matchesPattern (w.pattern W) = true) : w.DecodesTo W (i.row W) := by
  cases w with
  | frame flags => exact decodesTo_of_matches_frame hf hm
  | seq code => exact decodesTo_of_matches_seq hf hm
  | engine p => exact decodesTo_of_matches_engine hf hm
  | host a =>
    obtain ⟨hbits, haddr⟩ := hw a rfl
    exact decodesTo_of_matches_host hW hbits haddr hf hm

/-! A word that decodes matches the row of its operation. -/

/-- The statement that `Laws/PerInstr.lean` proves of each operation. -/
theorem encoding_matches_row (i : Instr) : Laws.EncodingMatchesItsRow.Statement i := by
  open Laws.EncodingMatchesItsRow in
  cases i
  exacts [frameFirst, frameMiddle, frameLast, rdCtrl, cmdNop, cmdStart, cmdClr, cmdCrcClr, rdStatus, rdReportId,
    wrReportId _, rdChunkCap, wrChunkCap _, rdPayloadLen, wrPayloadLen _, rdFrameCount, rdFrameIndex, rdCrcData,
    wrCrcData _, rdCrcValue, rdSeqPhase, rdSeqOff, emitRid, emitFlags, emitReml, emitRemh, emitLen, emitData, emitCrc,
    crcClr, crcByte _]

/-- A read matches its row whatever stands on the data lines (log 14). -/
theorem read_matches_row {W : Nat} {a : Access} {r : Reg} (hbits : a.bits = W) (hdir : a.dir = .read)
    (haddr : a.addr = r.offset) :
    ((decodeRead r).row W).format = .host ∧ ((decodeRead r).row W).matchesPattern (a.pack W) = true := by
  obtain ⟨name, hrow⟩ := decodeRead_row W r
  have hselect : a.select = r.offset := by
    rw [Access.select, hdir, haddr, Nat.mod_eq_of_lt r.offset_lt_64, Nat.zero_add]
  have hmask : r.offset &&& 0x7F = r.offset := by cases r <;> rfl
  rw [hrow, Access.pack_eq, hselect]
  exact ⟨rfl, Laws.EncodingMatchesItsRow.hostRow_matches name hmask (Access.wdata_lt hbits)⟩

theorem row_matches_of_decode {W : Nat} {w : OpWord} {i : Instr} (hW : 32 ≤ W) (h : decode W w = .ok i) :
    (i.row W).format = w.format ∧ (i.row W).matchesPattern (w.pattern W) = true := by
  cases w with
  | frame flags =>
    simp only [decode, decodeFlags] at h
    split at h <;> cases h
    all_goals next hv => exact ⟨rfl, beq_iff_eq.mpr ((BitVec.toNat_and ..).symm.trans hv)⟩
  | seq code =>
    have hcode : code.toNat &&& 0x7 = code.toNat := by
      rw [Nat.and_two_pow_sub_one_eq_mod _ 3, Nat.mod_eq_of_lt code.isLt]
    simp only [decode, decodePhase] at h
    split at h <;> cases h
    all_goals next hv => exact ⟨rfl, beq_iff_eq.mpr (hcode.trans hv)⟩
  | engine p =>
    simp only [decode, decodeEngine] at h
    split at h <;> cases h
    · next hselect => exact ⟨rfl, beq_iff_eq.mpr ((and_select p).trans (if_pos hselect))⟩
    · next hselect => exact ⟨rfl, beq_iff_eq.mpr ((and_select p).trans (if_neg hselect))⟩
  | host a =>
    obtain ⟨hbits, ⟨r, hdir, haddr, rfl⟩ | hencode⟩ := decodeAccess_eq_ok h
    · exact read_matches_row hbits hdir haddr
    · have hrow := encoding_matches_row i W hW (wellFormed_of_decode h)
      rw [hencode] at hrow
      obtain ⟨hformat, hmatch⟩ := hrow
      exact ⟨hformat.symm, hmatch⟩

/-! The table. -/

/-- Every operation stands in the table, with its operand or without. -/
theorem row_mem_opcodeTable (W : Nat) (i : Instr) : i.row W ∈ opcodeTable W := by
  cases i
  case wrReportId v => exact List.mem_map.mpr ⟨.wrReportId 0, by decide, rfl⟩
  case wrChunkCap v => exact List.mem_map.mpr ⟨.wrChunkCap 0, by decide, rfl⟩
  case wrPayloadLen v => exact List.mem_map.mpr ⟨.wrPayloadLen 0, by decide, rfl⟩
  case wrCrcData v => exact List.mem_map.mpr ⟨.wrCrcData 0, by decide, rfl⟩
  case crcByte b => exact List.mem_map.mpr ⟨.crcByte 0, by decide, rfl⟩
  all_goals exact List.mem_map_of_mem (by decide)

/-- Settles O2: a word that decodes matches the row of its operation, and a word that matches a row decodes to an
operation of it. -/
theorem decoderIsTheOpcodeTable : Obligations.DecoderIsTheOpcodeTable := by
  intro W w r hW hw
  constructor
  · rintro ⟨i, hd, rfl⟩
    exact ⟨row_mem_opcodeTable W i, row_matches_of_decode hW hd⟩
  · rintro ⟨hmem, hf, hm⟩
    obtain ⟨i, -, rfl⟩ := List.mem_map.mp hmem
    exact decodesTo_of_matches hW hw hf hm

/-! The rows are told apart. -/

/-- How many bits a pattern of a format has (R88). -/
def Format.bits (W : Nat) : Format → Nat
  | .frame => 8
  | .host => hostBits W
  | .seq => 3
  | .engine => 9

/-- The word of a format whose pattern is the number `p`, as far as the format has bits. -/
def Format.word (W p : Nat) : Format → OpWord
  | .frame => .frame (BitVec.ofNat 8 p)
  | .host => .host (Access.unpack W p)
  | .seq => .seq (BitVec.ofNat 3 p)
  | .engine => .engine (BitVec.ofNat 9 p)

@[simp] theorem Format.format_word (W p : Nat) (f : Format) : (f.word W p).format = f := by
  cases f <;> rfl

theorem Access.pack_unpack (W p : Nat) : (Access.unpack W p).pack W = p % 2 ^ hostBits W := by
  have hselect : (Access.unpack W p).select = p / 2 ^ W % 128 := by
    simp only [Access.select, Access.unpack]
    split
    all_goals
      next hdir =>
        split at hdir
        all_goals cases hdir
        all_goals omega
  have hdata : (Access.unpack W p).wdata.toNat = p % 2 ^ W := BitVec.toNat_ofNat p W
  have hbits : 2 ^ hostBits W = 2 ^ W * 128 := Nat.pow_add 2 W 7
  rw [Access.pack_eq, hselect, hdata, hbits, Nat.mod_mul, Nat.mul_comm, Nat.add_comm]

theorem Format.pattern_word (W p : Nat) (f : Format) : (f.word W p).pattern W = p % 2 ^ f.bits W := by
  cases f
  case host => exact Access.pack_unpack W p
  all_goals exact BitVec.toNat_ofNat ..

/-- No row looks at a bit above those of its format. -/
theorem Instr.row_mask_lt (W : Nat) (i : Instr) : (i.row W).mask < 2 ^ (i.row W).format.bits W := by
  have hW := Nat.two_pow_pos W
  have hbits : 2 ^ hostBits W = 2 ^ W * 128 := Nat.pow_add 2 W 7
  have hhost : 0x7F * 2 ^ W < 2 ^ hostBits W := by omega
  have hcommand : 2 ^ hostBits W - 1 < 2 ^ hostBits W := by omega
  have hcrcData : 2 ^ hostBits W - 0x100 < 2 ^ hostBits W := by omega
  cases i
  case frameFirst | frameMiddle | frameLast => exact (by decide : 0xE0 < 2 ^ 8)
  case emitRid | emitFlags | emitReml | emitRemh | emitLen | emitData | emitCrc => exact (by decide : 0x7 < 2 ^ 3)
  case crcClr | crcByte => exact (by decide : 0x100 < 2 ^ 9)
  case cmdNop | cmdStart | cmdClr | cmdCrcClr => exact hcommand
  case wrCrcData => exact hcrcData
  all_goals exact hhost

/-- So a number and the word of its low bits match the same rows. -/
theorem matchesPattern_word {W p : Nat} {i : Instr} (h : (i.row W).matchesPattern p = true) :
    (i.row W).matchesPattern (((i.row W).format.word W p).pattern W) = true := by
  have hmask := i.row_mask_lt W
  rw [Format.pattern_word]
  rw [Row.matchesPattern, beq_iff_eq] at h ⊢
  rw [← Nat.and_two_pow_sub_one_eq_mod, Nat.and_assoc, Nat.and_comm (2 ^ _ - 1),
    Nat.and_two_pow_sub_one_eq_mod, Nat.mod_eq_of_lt hmask, h]

theorem word_host {W p : Nat} {f : Format} {a : Access} (h : f.word W p = .host a) : a.bits = W ∧ a.addr < 64 := by
  cases f <;> cases h
  exact ⟨rfl, Nat.mod_lt _ (by decide)⟩

/-- The mnemonics of the table are the same at every width. -/
theorem Instr.row_mnemonic (W : Nat) (i : Instr) : (i.row W).mnemonic = (i.row 32).mnemonic := by
  cases i <;> rfl

theorem nodup_mnemonics : ((opcodeTable 32).map Row.mnemonic).Nodup := by
  decide +kernel

/-- Every row has its own mnemonic. -/
theorem nodup_opcodeTable (W : Nat) : (opcodeTable W).Nodup := by
  have hnames : (opcodeTable W).map Row.mnemonic = (opcodeTable 32).map Row.mnemonic := by
    rw [opcodeTable, opcodeTable, List.map_map, List.map_map]
    exact List.map_congr_left fun i _ => i.row_mnemonic W
  have hnodup := nodup_mnemonics
  rw [← hnames] at hnodup
  exact hnodup.of_map

/-- Settles O3: a pattern that two rows match is that of a word that decodes to an operation of each, and the decoder
answers only one operation. -/
theorem noTwoRowsMatchOnePattern : Obligations.NoTwoRowsMatchOnePattern := by
  intro W hW
  refine (nodup_opcodeTable W).imp_of_mem fun {r q} hr hq hne hformat p ⟨hrp, hqp⟩ => hne ?_
  obtain ⟨i, -, rfl⟩ := List.mem_map.mp hr
  obtain ⟨j, -, rfl⟩ := List.mem_map.mp hq
  have hdecodes {k : Instr} (hk : (k.row W).format = (i.row W).format) (h : (k.row W).matchesPattern p = true) :
      ((i.row W).format.word W p).DecodesTo W (k.row W) :=
    decodesTo_of_matches hW (fun _ => word_host) (by simp [hk]) (hk ▸ matchesPattern_word h)
  obtain ⟨i', hi, hirow⟩ := hdecodes rfl hrp
  obtain ⟨j', hj, hjrow⟩ := hdecodes hformat.symm hqp
  cases hi.symm.trans hj
  exact hirow.symm.trans hjrow

end Sys2Proof
end

section
/-! Operations that are asked for: the host access or the engine request that encodes an operation, the pseudo-operation
CRC8, and an accepted CMD.START (spec/30_encoding.md R87, spec/41_encoder.md R129, spec/42_host_interface.md R160). -/

namespace Sys2Proof.Machine

open Sys2Proof

/-- A host access that encodes a well-formed operation runs it, in every mode. -/
theorem step_of_encode_host {s : State} {a : Access} {rest : List Request} {i : Instr} (hW : 32 ≤ s.W)
    (hi : i.wellFormed s.W = true) (ha : encode s.W i = .host a) (h : s.inbox = .host a :: rest) :
    step s = exec i { s with inbox := rest } := by
  have hd := decode_encode hW hi
  rw [ha] at hd
  exact step_of_decodeAccess_ok h hd

/-- An engine request runs the operation it encodes outside BUSY, and is dropped while BUSY (R106, log 10). -/
theorem step_of_encode_engine {s : State} {p : BitVec 9} {rest : List Request} {i : Instr} (hW : 32 ≤ s.W)
    (hi : i.wellFormed s.W = true) (hp : encode s.W i = .engine p) (h : s.inbox = .engine p :: rest) :
    step s = if s.mode = .busy then .next { s with inbox := rest } else exec i { s with inbox := rest } := by
  split
  case isTrue hb =>
    rw [step_of_fetch_none (by simp [State.fetch, h, hb])]
    simp only [State.outside, h, State.dropRequest_of_cons h]
  case isFalse hb =>
    have hd := decode_encode hW hi
    rw [hp] at hd
    rw [step_of_fetch_some (by simp [State.fetch, h, hb]) hd, State.dropRequest_of_cons h]

/-- Settles O7: the decoder reads the operation from its encoding, and the access or the request makes it due. -/
theorem requestsRunTheirOperations : Obligations.RequestsRunTheirOperations :=
  fun _ _ _ hW hi => ⟨fun _ => step_of_encode_host hW hi, fun _ => step_of_encode_engine hW hi⟩

/-! The pseudo-operation CRC8, line by line. -/

/-- `s` after host lines that leave `crc` in the checksum register, are answered `out`, and have `rest` to follow. -/
def State.afterLines (s : State) (crc : Byte) (out : List Reply) (rest : List Request) : State :=
  { s with crc := crc, replies := s.replies ++ out, inbox := rest }

theorem State.afterLines_afterLines (s : State) (crc crc' : Byte) (out out' : List Reply) (rest rest' : List Request) :
    (s.afterLines crc out rest).afterLines crc' out' rest' = s.afterLines crc' (out ++ out') rest' := by
  simp only [State.afterLines, List.append_assoc]

/-- The data lines of CRC8. -/
def crcDataLines (W : Nat) (bytes : List Byte) : List Request := bytes.map fun b => wr W .crcData b.toNat

section Lines

variable {s : State} {rest : List Request} (hW : 32 ≤ s.W)

include hW

theorem step_of_cmdCrcClrLine (hm : s.mode ≠ .busy) (h : s.inbox = cmdCrcClrLine s.W :: rest) :
    step s = .next (s.afterLines crcInit [.ok] rest) :=
  (step_of_encode_host (i := .cmdCrcClr) hW rfl rfl h).trans (exec_cmdCrcClr_of_not_busy hm)

theorem step_of_wr_crcData {b : Byte} (hm : s.mode ≠ .busy) (h : s.inbox = wr s.W .crcData b.toNat :: rest) :
    step s = .next (s.afterLines (crc8Byte s.crc b) [.ok] rest) := by
  have hb : b.toNat ≤ 0xFF := Nat.le_of_lt_succ b.isLt
  have hexec := exec_wrCrcData_of_accepted (s := { s with inbox := rest }) hm hb
  rw [BitVec.ofNat_toNat, BitVec.setWidth_eq] at hexec
  exact (step_of_encode_host (i := .wrCrcData b.toNat) hW (decide_eq_true hb) rfl h).trans hexec

theorem step_of_rd_crcValue (h : s.inbox = rd s.W .crcValue :: rest) :
    step s = .next (s.afterLines s.crc [.data s.crc.toNat] rest) :=
  step_of_encode_host (i := .rdCrcValue) hW rfl rfl h

end Lines

/-- By induction on the bytes: each line absorbs one of them and is answered OK. -/
theorem runSteps_crcDataLines {s : State} {bytes : List Byte} {rest : List Request} (k : Nat) (hW : 32 ≤ s.W)
    (hm : s.mode ≠ .busy) (h : s.inbox = crcDataLines s.W bytes ++ rest) :
    runSteps (bytes.length + k) s =
      runSteps k (s.afterLines (bytes.foldl crc8Byte s.crc) (List.replicate bytes.length .ok) rest) := by
  induction bytes generalizing s with
  | nil =>
    have hs : s.afterLines s.crc [] rest = s := by
      rw [State.afterLines, List.append_nil, ← h.trans (List.nil_append rest)]
    exact congrArg₂ runSteps (Nat.zero_add k) hs.symm
  | cons b bytes ih =>
    have hstep : step s = .next (s.afterLines (crc8Byte s.crc b) [.ok] (crcDataLines s.W bytes ++ rest)) :=
      step_of_wr_crcData hW hm h
    rw [List.length_cons, Nat.succ_add, runSteps_succ hstep, ih (s := s.afterLines _ _ _) hW hm rfl,
      State.afterLines_afterLines]
    rfl

/-- Settles O12: the register is cleared, absorbs the bytes in order, and is read. -/
theorem hostChecksumProgramAnswersTheChecksum : Obligations.HostChecksumProgramAnswersTheChecksum := by
  intro s bytes rest hW hm h
  have hinbox : s.inbox = cmdCrcClrLine s.W :: (crcDataLines s.W bytes ++ rd s.W .crcValue :: rest) :=
    h.trans (List.append_assoc (cmdCrcClrLine s.W :: crcDataLines s.W bytes) _ rest)
  rw [runSteps_succ (step_of_cmdCrcClrLine hW hm hinbox),
    runSteps_crcDataLines (s := s.afterLines _ _ _) 1 hW hm rfl,
    runSteps_succ (step_of_rd_crcValue (s := (s.afterLines _ _ _).afterLines _ _ _) hW rfl),
    State.afterLines_afterLines, State.afterLines_afterLines]
  simp only [State.afterLines, List.append_assoc, List.replicate_succ]
  rfl

/-! An accepted CMD.START. -/

/-- Settles O27: a payload of at most 65536 full frames has at most so many frames, so the count fits its 17 bits; a
report id up to 0xFF is one byte. -/
theorem startLatchesTheTransfer : Obligations.StartLatchesTheTransfer := by
  intro s hm hC hrid hlen
  have hN : nframes s.payloadLen s.chunkCap ≤ Config.nmax :=
    Nat.le_of_not_lt fun h => Nat.not_lt_of_le hlen ((lt_nframes_iff hC (by decide)).mp h)
  exact ⟨s.started, exec_cmdStart_of_accepted hm hC hrid hN,
    (BitVec.toNat_ofNat ..).trans (Nat.mod_eq_of_lt (Nat.lt_succ_of_le hrid)),
    (BitVec.toNat_ofNat ..).trans (Nat.mod_eq_of_lt (hN.trans_lt (by decide))), rfl⟩

end Sys2Proof.Machine
end

section
/-! The load of EMIT.DATA with its races and its addresses, the operations that wait until they are enabled, and whole
frames: what a frame operation emits, and that it is the run of its micro-operations (spec/41_encoder.md R125, R126, R130
to R139, spec/20_memory.md R62, spec/30_encoding.md R80). -/

namespace Sys2Proof.Machine

open Sys2Proof

/-! Operations that wait. -/

/-- Settles O37: each of the seven is `exec_microOp` with its phase. -/
theorem microOperationsWaitUntilEnabled : Obligations.MicroOperationsWaitUntilEnabled := by
  intro s
  have hwait {p : Phase} (h : ¬ s.enabled p) : exec p.microOp s = .next s :=
    exec_microOp_of_not_canEmit fun ⟨he, _⟩ => h he
  refine ⟨hwait, hwait, hwait, hwait, hwait, fun h => ?_, hwait⟩
  exact exec_microOp_of_not_canEmit (p := .data) fun ⟨⟨hb, hp, hr⟩, hback⟩ => h ⟨hb, hp, hr, hback rfl⟩

/-- The three frame operations, by the flags byte of their kind (R80). -/
theorem exec_frame {kind : Byte} {i : Instr}
    (h : (kind, i) ∈ [((0x80 : Byte), Instr.frameFirst), (0x40, .frameMiddle), (0x20, .frameLast)]) :
    exec i = frameOperation kind := by
  simp only [List.mem_cons, List.not_mem_nil, or_false, Prod.mk.injEq] at h
  obtain ⟨rfl, rfl⟩ | ⟨rfl, rfl⟩ | ⟨rfl, rfl⟩ := h <;> rfl

/-- Settles O42: the test of a frame operation fails. -/
theorem frameOperationsWaitUntilEnabled : Obligations.FrameOperationsWaitUntilEnabled := by
  intro s kind i hi h
  rw [exec_frame hi]
  exact congrArg Host.Outcome.next (if_neg fun ⟨⟨hb, hp, hr⟩, hkind, hback⟩ => h ⟨hb, hp, hr, hkind, hback⟩)

theorem exec_frame_of_enabled {s : State} {kind : Byte} {i : Instr}
    (hi : (kind, i) ∈ [((0x80 : Byte), Instr.frameFirst), (0x40, .frameMiddle), (0x20, .frameLast)])
    (h : s.frameEnabled kind) : exec i s = .next s.emitFrame := by
  rw [exec_frame hi]
  exact congrArg Host.Outcome.next (if_pos h)

/-! The load. -/

/-- Settles O35: the byte read is one of those held, and a raced address counts one race more. -/
theorem racingDataMicroOperation : Obligations.RacingDataMicroOperation := by
  intro s hb hr hp hback hrace
  have hraced : s.raced s.dueAddr := hrace
  have hexec : exec .emitData s = .next (s.afterMicroOp .data) :=
    exec_microOp_of_canEmit (p := .data) ⟨⟨hb, hp, hr⟩, fun _ => hback⟩
  rw [State.afterMicroOp, State.afterRead_of_raced hraced] at hexec
  refine ⟨s.payloadByte s.dueAddr, ?_, hexec⟩
  have hmem := s.payloadByte_mem_heldBytes s.dueAddr
  rw [State.heldBytes, List.mem_cons, List.mem_map] at hmem
  obtain hnow | ⟨⟨c, v⟩, hold, rfl⟩ := hmem
  · exact .inl hnow
  · obtain ⟨hc, haddr⟩ := List.mem_filter.mp hold
    cases of_decide_eq_true haddr
    exact .inr hc

/-- Settles O39: a full frame ends where the next begins, and the last one where the payload ends. -/
theorem loadAddressesAscendWithinThePayload : Obligations.LoadAddressesAscendWithinThePayload := by
  intro s t hinv hb hr hp hback h
  have hexec : exec .emitData s = .next (s.afterMicroOp .data) :=
    exec_microOp_of_canEmit (p := .data) ⟨⟨hb, hp, hr⟩, fun _ => hback⟩
  cases hexec.symm.trans h
  obtain ⟨hcap, hcount, hindex⟩ := hinv.run hb
  have hoff : s.seqOff < datalen s.seqIdx.toNat s.plen s.cap := hinv.offData hp
  have hfit := base_add_datalen_le hcap (hcount ▸ hindex)
  have hlast : (s.afterMicroOp .data).seqPhase = .crc → s.seqOff + 1 = datalen s.seqIdx.toNat s.plen s.cap := by
    intro hcrc
    by_contra hmore
    exact nomatch (if_neg hmore).symm.trans hcrc
  have haddr : s.dueAddr = s.seqIdx.toNat * s.cap + s.seqOff := rfl
  refine ⟨rfl, by omega, fun _ => ?_, fun hcrc hnext => ?_, fun hcrc hend => ?_⟩
  · simp [State.dueAddr, State.dueBase, State.afterMicroOp, Nat.add_assoc]
  · have hfull := datalen_of_not_last (L := s.plen) hcap (hcount ▸ hnext)
    have hsent := hlast hcrc
    rw [Nat.add_mul, Nat.one_mul]
    omega
  · have hrest := datalen_of_last (L := s.plen) hcap (hcount ▸ hend)
    have hsent := hlast hcrc
    omega

/-! What a frame operation emits. -/

/-- The frame that the sequencer stands at, emitted: all but the position (R125, R126, R137). -/
def State.frameEmitted (s : State) : State :=
  { (s.readRun s.dueBase s.dueLen).2 with tx := s.tx ++ frameBeats s.rid s.frameBody, crc := crc8 s.frameBody }

theorem State.emitFrame_eq (s : State) : s.emitFrame = s.frameEmitted.endFrame := rfl

theorem State.dueFlags_eq_last_iff {s : State} : s.dueFlags = 0x20 ↔ s.seqIdx.toNat + 1 = s.nfr.toNat :=
  flagsof_eq_last_iff

/-- Settles O40: with the payload stable the bytes read are those that memory holds; the kind says whether the frame is
the last. -/
theorem frameOperationEmitsItsFrame : Obligations.FrameOperationEmitsItsFrame := by
  intro s kind i hi hb hp hr hstable hkind hback
  have hkind : s.dueFlags = kind := hkind
  have hexec := exec_frame_of_enabled hi ⟨⟨hb, hp, hr⟩, hkind, hback⟩
  have hrun := State.readRun_of_stale_nil hstable s.dueBase s.dueLen
  have hbody : s.frameBody = [kind, lowByte s.dueRemaining, highByte s.dueRemaining, lowByte s.dueLen]
      ++ s.pmem.slice s.dueBase s.dueLen := by
    rw [State.frameBody, hrun, hkind, bodyBytes, Memory.length_slice]
    rfl
  have hemitted : s.frameEmitted = { s with
      tx := s.tx ++ (s.rid :: s.frameBody).map (fun b => ⟨b, false⟩) ++ [⟨crc8 s.frameBody, true⟩]
      crc := crc8 s.frameBody } := by
    rw [State.frameEmitted, hrun, frameBeats_eq, List.append_assoc]
  rw [State.emitFrame_eq] at hexec
  refine ⟨s.frameBody, _, hbody, hexec, ?_, fun hlast => ?_, fun hnext => ?_⟩
  · rw [State.endFrame_frame, hemitted]
    simp [State.withSequencerOf]
  · rw [State.endFrame_last (by rw [hemitted]; exact State.dueFlags_eq_last_iff.mp (hkind.trans hlast)), hemitted]
    exact ⟨rfl, rfl⟩
  · rw [State.endFrame_next (by
      rw [hemitted]
      exact fun hlast => hnext (hkind.symm.trans (State.dueFlags_eq_last_iff.mpr hlast))), hemitted]
    exact ⟨rfl, hb⟩

/-! A frame byte by byte. -/

/-- Some bytes of a body, emitted and absorbed one after the other. -/
def State.emitAll (s : State) (bytes : List Byte) : State := bytes.foldl State.emitBody s

theorem State.emitAll_append (s : State) (p q : List Byte) : s.emitAll (p ++ q) = (s.emitAll p).emitAll q :=
  List.foldl_append

theorem State.toPhase_goto (s : State) (i : BitVec 17) (p q : Phase) (o : Nat) :
    (s.toPhase p).goto i q o = s.goto i q o := rfl

theorem State.goto_goto (s : State) (i j : BitVec 17) (p q : Phase) (o k : Nat) :
    (s.goto i p o).goto j q k = s.goto j q k := rfl

theorem State.emitAll_goto (s : State) (i : BitVec 17) (p : Phase) (o : Nat) (bytes : List Byte) :
    (s.goto i p o).emitAll bytes = (s.emitAll bytes).goto i p o := by
  induction bytes generalizing s with
  | nil => rfl
  | cons b bytes ih => exact ih (s.emitBody b)

theorem State.emitAll_eq (s : State) (bytes : List Byte) : s.emitAll bytes = { s with
    tx := s.tx ++ bytes.map (fun b => ⟨b, false⟩), crc := bytes.foldl crc8Byte s.crc } := by
  induction bytes generalizing s with
  | nil => simp [State.emitAll]
  | cons b bytes ih =>
    refine (ih (s.emitBody b)).trans ?_
    simp only [State.emitBody_tx, List.append_assoc, List.singleton_append, List.map_cons]
    rfl

/-- The report id and then a body, emitted and absorbed. -/
theorem State.emitAll_after_rid (s : State) (rid : Byte) (body : List Byte) :
    ((s.txEmit rid false).crcClear).emitAll body = { s with
      tx := s.tx ++ (rid :: body).map (fun b => ⟨b, false⟩), crc := crc8 body } := by
  rw [State.emitAll_eq, List.map_cons, List.append_cons]
  rfl

/-- The end of a frame looks at the frame index alone, and not at phase and offset. -/
theorem State.endFrame_goto (s : State) (p : Phase) (o : Nat) : (s.goto s.seqIdx p o).endFrame = s.endFrame := by
  by_cases hlast : s.seqIdx.toNat + 1 = s.nfr.toNat
  · rw [State.endFrame_last hlast, State.endFrame_last (s := s.goto s.seqIdx p o) hlast]
    rfl
  · rw [State.endFrame_next hlast, State.endFrame_next (s := s.goto s.seqIdx p o) hlast]
    rfl

/-- BUSY with the consumer ready, and nothing from outside: every step is a turn of the sequencer. -/
structure State.Running (s : State) : Prop where
  busy  : s.mode = .busy
  ready : s.txReady = true
  inbox : s.inbox = []

/-- The first step of such a run is the micro-operation of the phase. -/
theorem State.Running.runSteps_succ {s : State} {p : Phase} (h : s.Running) (hp : s.seqPhase = p)
    (hback : p = .data → s.backed s.dueAddr) (k : Nat) : runSteps (k + 1) s = runSteps k (s.afterMicroOp p) := by
  subst hp
  have hstep : step s = exec s.seqPhase.microOp s.dropRequest :=
    step_of_fetch_some (State.fetch_of_hasTurn h.busy (.inl h.inbox)) (decode_seq_code s.W s.seqPhase)
  rw [State.dropRequest_of_nil h.inbox, exec_microOp_of_canEmit ⟨⟨h.busy, rfl, h.ready⟩, hback⟩] at hstep
  exact Machine.runSteps_succ hstep k

/-- The header of the frame that the sequencer stands at (R70 to R74). -/
def State.header (s : State) : List Byte := headerBytes s.dueFlags s.dueRemaining s.dueLen

/-- The report id and `k` bytes of the header are emitted, and phase `p` is due. -/
def State.headerSent (s : State) (k : Nat) (p : Phase) : State :=
  (((s.txEmit s.rid false).crcClear).emitAll (s.header.take k)).toPhase p

/-- The state before the data bytes: the report id and the header are emitted. -/
def State.headerEmitted (s : State) : State :=
  (s.headerSent 4 .len).goto s.seqIdx (if s.dueLen = 0 then .crc else .data) 0

/-- Of what the sequencer reads, emitting the header changes the phase alone. -/
theorem State.headerSent_eq (s : State) (k : Nat) (p : Phase) :
    ∃ tx crc, s.headerSent k p = { s with tx := tx, crc := crc, seqPhase := p } :=
  ⟨_, _, by rw [State.headerSent, State.emitAll_eq]; rfl⟩

theorem State.headerSent_due (s : State) (k : Nat) (p : Phase) : (s.headerSent k p).dueFlags = s.dueFlags ∧
    (s.headerSent k p).dueRemaining = s.dueRemaining ∧ (s.headerSent k p).dueLen = s.dueLen ∧
    (s.headerSent k p).seqIdx = s.seqIdx := by
  obtain ⟨tx, crc, e⟩ := s.headerSent_eq k p
  rw [e]
  exact ⟨rfl, rfl, rfl, rfl⟩

theorem State.emitBody_headerSent {s : State} {k : Nat} {b : Byte} (hb : s.header[k]? = some b) (p q : Phase) :
    ((s.headerSent k p).emitBody b).toPhase q = s.headerSent (k + 1) q := by
  rw [State.headerSent, State.headerSent, List.take_add_one, hb, State.emitAll_append]
  rfl

theorem State.Running.headerSent {s : State} (h : s.Running) (k : Nat) (p : Phase) : (s.headerSent k p).Running := by
  obtain ⟨tx, crc, e⟩ := s.headerSent_eq k p
  rw [e]
  exact ⟨h.busy, h.ready, h.inbox⟩

/-- R132 to R135: each micro-operation of the header emits its byte of it. -/
theorem State.afterMicroOp_headerSent (s : State) :
    (s.headerSent 0 .flags).afterMicroOp .flags = s.headerSent 1 .reml ∧
    (s.headerSent 1 .reml).afterMicroOp .reml = s.headerSent 2 .remh ∧
    (s.headerSent 2 .remh).afterMicroOp .remh = s.headerSent 3 .len ∧
    (s.headerSent 3 .len).afterMicroOp .len = s.headerEmitted := by
  refine ⟨?_, ?_, ?_, ?_⟩
  · obtain ⟨hflags, -, -, -⟩ := s.headerSent_due 0 .flags
    rw [State.afterMicroOp, hflags]
    exact State.emitBody_headerSent rfl _ _
  · obtain ⟨-, hremaining, -, -⟩ := s.headerSent_due 1 .reml
    rw [State.afterMicroOp, hremaining]
    exact State.emitBody_headerSent rfl _ _
  · obtain ⟨-, hremaining, -, -⟩ := s.headerSent_due 2 .remh
    rw [State.afterMicroOp, hremaining]
    exact State.emitBody_headerSent rfl _ _
  · obtain ⟨-, -, hlen, hidx⟩ := s.headerSent_due 3 .len
    rw [State.afterMicroOp, hlen, hidx, State.headerEmitted,
      ← State.emitBody_headerSent (k := 3) (b := lowByte s.dueLen) rfl .len .len]
    rfl

/-- R131 to R135: five steps for the report id and the header. -/
theorem State.Running.runSteps_header {s : State} (h : s.Running) (hp : s.seqPhase = .rid) (k : Nat) :
    runSteps (k + 5) s = runSteps k s.headerEmitted := by
  have hrid : s.afterMicroOp .rid = s.headerSent 0 .flags := rfl
  obtain ⟨hflags, hreml, hremh, hlen⟩ := s.afterMicroOp_headerSent
  rw [h.runSteps_succ hp nofun, hrid, (h.headerSent 0 .flags).runSteps_succ (p := .flags) rfl nofun, hflags,
    (h.headerSent 1 .reml).runSteps_succ (p := .reml) rfl nofun, hreml,
    (h.headerSent 2 .remh).runSteps_succ (p := .remh) rfl nofun, hremh,
    (h.headerSent 3 .len).runSteps_succ (p := .len) rfl nofun, hlen]

/-- The state after the last `k` data bytes of a frame: they are read, races included, and emitted. -/
def State.dataEmitted (s : State) (k : Nat) : State :=
  ((s.readRun s.dueAddr k).2.emitAll (s.readRun s.dueAddr k).1).goto s.seqIdx .crc s.dueLen

theorem commutesWithReads_emit (b : Byte) (i : BitVec 17) (p : Phase) (o : Nat) :
    CommutesWithReads fun s => (s.emitBody b).goto i p o :=
  commutesWithReads (fun _ => rfl) (fun _ => rfl) (fun _ => rfl) fun _ _ => rfl

/-- Of what the sequencer reads, a data byte changes phase and offset, and the count of races. -/
theorem State.afterMicroOp_data_eq (s : State) : ∃ tx crc n, s.afterMicroOp .data = { s with
    tx := tx, crc := crc, raceCount := n, seqOff := s.seqOff + 1
    seqPhase := if s.seqOff + 1 = s.dueLen then .crc else .data } := by
  obtain ⟨n, hn⟩ := s.afterRead_eq_withRaces s.dueAddr
  exact ⟨_, _, n, by rw [State.afterMicroOp, hn]; rfl⟩

/-- A data byte and those after it. -/
theorem State.dataEmitted_succ (s : State) (k : Nat) : (s.afterMicroOp .data).dataEmitted k = s.dataEmitted (k + 1) := by
  have hrun := (commutesWithReads_emit (s.payloadByte s.dueAddr) s.seqIdx
    (if s.seqOff + 1 = s.dueLen then .crc else .data) (s.seqOff + 1)).readRun (s.afterRead s.dueAddr) (s.dueAddr + 1) k
  obtain ⟨haddr, hlen⟩ : (s.afterMicroOp .data).dueAddr = s.dueAddr + 1 ∧ (s.afterMicroOp .data).dueLen = s.dueLen := by
    obtain ⟨tx, crc, n, e⟩ := s.afterMicroOp_data_eq
    rw [e]
    exact ⟨rfl, rfl⟩
  rw [State.dataEmitted, haddr, hlen, State.afterMicroOp, hrun, State.emitAll_goto]
  rfl

/-- R136, by induction on the number of data bytes left: one step for each of them. -/
theorem State.Running.runSteps_data {s : State} {k : Nat} (h : s.Running) (hk : s.seqOff + k = s.dueLen)
    (hp : s.seqPhase = if s.seqOff = s.dueLen then .crc else .data)
    (hback : ∀ o, s.seqOff ≤ o → o < s.dueLen → s.backed (s.dueBase + o)) (j : Nat) :
    runSteps (j + k) s = runSteps j (s.dataEmitted k) := by
  induction k generalizing s with
  | zero =>
    have hoff : s.seqOff = s.dueLen := hk
    rw [if_pos hoff] at hp
    have hs : s.dataEmitted 0 = s := by
      rw [State.dataEmitted, ← hp, ← hoff]
      rfl
    rw [hs, Nat.add_zero]
  | succ k ih =>
    have hoff : s.seqOff ≠ s.dueLen := by omega
    rw [if_neg hoff] at hp
    rw [← Nat.add_assoc, h.runSteps_succ hp (fun _ => hback s.seqOff (Nat.le_refl _) (by omega)),
      ← State.dataEmitted_succ]
    obtain ⟨tx, crc, n, e⟩ := s.afterMicroOp_data_eq
    rw [e]
    refine ih ⟨h.busy, h.ready, h.inbox⟩ ?_ rfl fun o ho => hback o (Nat.le_of_succ_le ho)
    exact (Nat.succ_add s.seqOff k).trans hk

/-- The report id and the header of the frame due in `s`, emitted from `x`. -/
def State.emitHeaderOf (s x : State) : State :=
  ((x.txEmit s.rid false).crcClear.emitAll s.header).goto s.seqIdx (if s.dueLen = 0 then .crc else .data) 0

theorem State.headerEmitted_eq_emitHeaderOf (s : State) : s.headerEmitted = s.emitHeaderOf s := by
  have hall : s.header.take 4 = s.header := rfl
  rw [State.headerEmitted, State.headerSent, hall, State.toPhase_goto, State.emitHeaderOf]

theorem commutesWithReads_emitHeaderOf (s : State) : CommutesWithReads s.emitHeaderOf := by
  refine commutesWithReads (fun x => ?_) (fun x => ?_) (fun x => ?_) fun x n => ?_ <;>
    simp only [State.emitHeaderOf, State.emitAll_eq] <;> rfl

/-- Of what the sequencer reads, emitting the report id and the header changes phase and offset. -/
theorem State.headerEmitted_eq (s : State) : ∃ tx crc, s.headerEmitted = { s with
    tx := tx, crc := crc, seqPhase := if s.dueLen = 0 then .crc else .data, seqOff := 0 } := by
  obtain ⟨tx, crc, e⟩ := s.headerSent_eq 4 .len
  exact ⟨tx, crc, by rw [State.headerEmitted, e]; rfl⟩

/-- The state before the checksum of a frame, but for the position: report id and body are emitted. -/
def State.bodyEmitted (s : State) : State :=
  ((s.readRun s.dueBase s.dueLen).2.txEmit s.rid false).crcClear.emitAll s.frameBody

theorem State.frameBody_eq (s : State) : s.frameBody = s.header ++ (s.readRun s.dueBase s.dueLen).1 := by
  rw [State.frameBody, bodyBytes, State.length_readRun]
  rfl

theorem State.dataEmitted_headerEmitted (s : State) :
    s.headerEmitted.dataEmitted s.dueLen = s.bodyEmitted.goto s.seqIdx .crc s.dueLen := by
  obtain ⟨haddr, hlen, hidx⟩ : s.headerEmitted.dueAddr = s.dueBase ∧ s.headerEmitted.dueLen = s.dueLen ∧
      s.headerEmitted.seqIdx = s.seqIdx := by
    obtain ⟨tx, crc, e⟩ := s.headerEmitted_eq
    rw [e]
    exact ⟨rfl, rfl, rfl⟩
  rw [State.dataEmitted, haddr, hlen, hidx, State.headerEmitted_eq_emitHeaderOf,
    (commutesWithReads_emitHeaderOf s).readRun, State.emitHeaderOf, State.emitAll_goto, ← State.emitAll_append,
    ← State.frameBody_eq, State.goto_goto, State.bodyEmitted]

theorem State.bodyEmitted_eq (s : State) : s.bodyEmitted = { (s.readRun s.dueBase s.dueLen).2 with
    tx := s.tx ++ (s.rid :: s.frameBody).map (fun b => ⟨b, false⟩), crc := crc8 s.frameBody } := by
  have htx : (s.readRun s.dueBase s.dueLen).2.tx = s.tx := by rw [State.readRun_state]
  rw [State.bodyEmitted, State.emitAll_after_rid, htx]

theorem State.afterMicroOp_crc_goto (s : State) (o : Nat) :
    (s.goto s.seqIdx .crc o).afterMicroOp .crc = (s.txEmit s.crc true).endFrame :=
  State.endFrame_goto (s.txEmit s.crc true) .crc o

/-- R137: the beat of the checksum completes the frame. -/
theorem State.afterMicroOp_bodyEmitted (s : State) (o : Nat) :
    (s.bodyEmitted.goto s.seqIdx .crc o).afterMicroOp .crc = s.emitFrame := by
  have hframe : s.bodyEmitted.txEmit s.bodyEmitted.crc true = s.frameEmitted := by
    rw [s.bodyEmitted_eq, State.frameEmitted, frameBeats_eq, ← List.append_assoc]
    rfl
  have hidx : s.bodyEmitted.seqIdx = s.seqIdx := by rw [s.bodyEmitted_eq, State.readRun_state]
  have hcrc := s.bodyEmitted.afterMicroOp_crc_goto o
  rw [hidx, hframe] at hcrc
  exact hcrc

/-- Settles O41: the header and the data are emitted byte by byte, and the checksum ends the frame. -/
theorem frameOperationIsTheRunOfItsMicroOperations : Obligations.FrameOperationIsTheRunOfItsMicroOperations := by
  intro s kind i hi hb hp hr hinbox hkind hback
  have hrun : s.Running := ⟨hb, hr, hinbox⟩
  have hdata : runSteps (1 + s.dueLen) s.headerEmitted = runSteps 1 (s.headerEmitted.dataEmitted s.dueLen) := by
    obtain ⟨tx, crc, e⟩ := s.headerEmitted_eq
    have hhead : s.headerEmitted.Running := by
      rw [e]
      exact ⟨hb, hr, hinbox⟩
    refine hhead.runSteps_data ?_ ?_ ?_ 1 <;> rw [e]
    · exact Nat.zero_add _
    · exact if_congr eq_comm rfl rfl
    · exact fun o _ ho => hback o (List.mem_range.mpr ho)
  have hbody : (s.bodyEmitted.goto s.seqIdx .crc s.dueLen).Running := by
    rw [s.bodyEmitted_eq, State.readRun_state]
    exact ⟨hb, hr, hinbox⟩
  calc runSteps (s.dueLen + 6) s
      = runSteps (1 + s.dueLen) s.headerEmitted := by
        rw [← hrun.runSteps_header hp, Nat.add_comm 1]
    _ = runSteps 1 (s.bodyEmitted.goto s.seqIdx .crc s.dueLen) := by rw [hdata, State.dataEmitted_headerEmitted]
    _ = .next s.emitFrame := by
        rw [hbody.runSteps_succ (p := .crc) rfl nofun 0, State.afterMicroOp_bodyEmitted]
        rfl
    _ = exec i s := (exec_frame_of_enabled hi ⟨⟨hb, hp, hr⟩, hkind, hback⟩).symm

end Sys2Proof.Machine
end
